-- ==== Sys2Proof/Word.lean ====
section
/-! DEFINITION. The bit-vector types of the block, each at the width the spec gives it
(30_encoding.md R45 to R49, 10_state.md R10, R23). -/

namespace Sys2Proof

/-- A 20-bit event word: `op` in bits 19:16, `arg` in bits 15:0 (R48). -/
abbrev EventWord := BitVec 20

/-- A SegmentPattern, SEG_W = 8 bits, active-high: a 1 bit is a lit segment (R45, C1). -/
abbrev Pattern := BitVec 8

/-- The 4-bit `digit` operand of ENCODE; only 0 to 9 are digits (R30, R49). -/
abbrev Digit := BitVec 4

/-- `sleep_cnt` and the operand of SLEEP, SLEEP_W = 16 bits, unsigned (R12). -/
abbrev Ticks := BitVec 16

/-- `blink_cnt`, BLINK_W = 5 bits, unsigned (R11). -/
abbrev BlinkCount := BitVec 5

/-- `led[1:0]`, the levels on the two status LED outputs (R14). -/
abbrev LedPair := BitVec 2

/-- `err[2:0]`, the sticky record of rejected operations (R15, R47). -/
abbrev ErrBits := BitVec 3

/-- The level of a one-bit line: `true` is 1, `false` is 0. -/
abbrev Level := Bool

end Sys2Proof
end

