-- ==== Sys2Proof/Syntax.lean ====
section
/-! DEFINITION. The eight operations of the opcode table (30_encoding.md R50), one constructor per
row, and the agent that performs each (00_scope.md R9, 60_exceptions.md R116). -/

namespace Sys2Proof

/-- One operation: "one atomic transition of the state, named by a mnemonic in capitals" (R7). -/
inductive Instr where
  /-- SLEEP n: request a sleep of `n` ticks (R66). -/
  | sleep (n : Ticks)
  /-- TICK: one firing of the hardware timer, handled to completion (R67). -/
  | tick
  /-- RESUME: the woken caller completes the sleep (R70). -/
  | resume
  /-- ENCODE d: look up the pattern of digit `d` (R81). -/
  | encode (d : Digit)
  /-- ENCODE_DP: the decimal-point-only pattern (R83). -/
  | encodeDp
  /-- DISPLAY p: serialise the pattern `p` to the shift register (R89). -/
  | display (p : Pattern)
  /-- FRAME: one iteration of MainLoop up to its suspension (R91). -/
  | frame
  /-- RESET: put the block in its first state (R131). -/
  | reset
  deriving DecidableEq, Repr

/-- The three agents that take steps (R9). -/
inductive Agent where
  | caller | timerHandler | reset
  deriving DecidableEq, Repr

/-- The agent that performs an operation (R9, R50). -/
def Instr.agent : Instr → Agent
  | .sleep _ => .caller
  | .tick => .timerHandler
  | .resume => .caller
  | .encode _ => .caller
  | .encodeDp => .caller
  | .display _ => .caller
  | .frame => .caller
  | .reset => .reset

/-- The two execution contexts (R116). -/
inductive Context where
  | mainLoop | tickHandler
  deriving DecidableEq, Repr

/-- The context that issues an operation, where one does: "the agent is implied by the operation";
RESET belongs to neither context, it enters the main-loop context (R116). -/
def Instr.context (i : Instr) : Option Context :=
  match i.agent with
  | .caller => some .mainLoop
  | .timerHandler => some .tickHandler
  | .reset => none

end Sys2Proof
end

