-- ==== Sys2Proof/WellFormed.lean ====
section
/-! DEFINITION. Which instruction terms are operations of the spec: the one check beyond the
operand's width is that ENCODE's digit is 0 to 9 (30_encoding.md R49, 41_segment_encoder.md R81). -/

namespace Sys2Proof

/-- The operand is in the range of R49. -/
def Instr.wellFormed : Instr → Bool
  | .sleep _ => true
  | .tick => true
  | .resume => true
  | .encode d => decide (d.toNat ≤ 9)
  | .encodeDp => true
  | .display _ => true
  | .frame => true
  | .reset => true

/-- `i` is an operation of the spec. -/
abbrev Instr.WellFormed (i : Instr) : Prop := i.wellFormed = true

end Sys2Proof
end

