-- ==== Sys2Proof/Decode.lean ====
section
/-! DEFINITION. The opcode map of 30_encoding.md R50, the decoder (total on all 2^20 event words,
refusing by name as R56 does), and the encoder written from the same table. -/

namespace Sys2Proof

/-- One row of the opcode map: `w` is the operation when `(w and mask) = match` and its operand is
in range (R50). -/
structure OpcodeRow where
  mnemonic : String
  pattern : EventWord
  mask : EventWord
  deriving DecidableEq, Repr

def rowSleep : OpcodeRow := ⟨"SLEEP", 0x10000#20, 0xF0000#20⟩
def rowTick : OpcodeRow := ⟨"TICK", 0x20000#20, 0xFFFFF#20⟩
def rowResume : OpcodeRow := ⟨"RESUME", 0x30000#20, 0xFFFFF#20⟩
def rowEncode : OpcodeRow := ⟨"ENCODE", 0x40000#20, 0xFFFF0#20⟩
def rowEncodeDp : OpcodeRow := ⟨"ENCODE_DP", 0x50000#20, 0xFFFFF#20⟩
def rowDisplay : OpcodeRow := ⟨"DISPLAY", 0x60000#20, 0xFFF00#20⟩
def rowFrame : OpcodeRow := ⟨"FRAME", 0x70000#20, 0xFFFFF#20⟩
def rowReset : OpcodeRow := ⟨"RESET", 0xF0000#20, 0xFFFFF#20⟩

/-- The opcode map, in the table's order (R50). -/
def opcodeTable : List OpcodeRow :=
  [rowSleep, rowTick, rowResume, rowEncode, rowEncodeDp, rowDisplay, rowFrame, rowReset]

/-- `(w and mask) = match` (R50). -/
def rowHits (r : OpcodeRow) (w : EventWord) : Bool := w &&& r.mask == r.pattern

/-- The row of an operation (R50). -/
def rowOf : Instr → OpcodeRow
  | .sleep _ => rowSleep
  | .tick => rowTick
  | .resume => rowResume
  | .encode _ => rowEncode
  | .encodeDp => rowEncodeDp
  | .display _ => rowDisplay
  | .frame => rowFrame
  | .reset => rowReset

/-- The field `op`, bits 19:16 (R48). -/
def opField (w : EventWord) : BitVec 4 := w.extractLsb' 16 4

/-- The field `arg`, bits 15:0 (R48). -/
def argField (w : EventWord) : BitVec 16 := w.extractLsb' 0 16

/-- SLEEP's operand `n = arg[15:0]` (R49). -/
def sleepOperand (w : EventWord) : Ticks := argField w

/-- ENCODE's operand `d = arg[3:0]` (R49). -/
def digitOperand (w : EventWord) : Digit := (argField w).extractLsb' 0 4

/-- DISPLAY's operand `p = arg[7:0]` (R49). -/
def patternOperand (w : EventWord) : Pattern := (argField w).extractLsb' 0 8

/-- Why a word is refused: the four items of R56. -/
inductive Reject where
  /-- R56 item 1: `op` = 0, or 8 to 14: reserved. -/
  | reservedOp
  /-- R56 item 2: TICK, RESUME, ENCODE_DP, FRAME or RESET with `arg` not 0. -/
  | operandNotZero
  /-- R56 item 3: ENCODE with `arg` above 9. -/
  | digitOutOfRange
  /-- R56 item 4: DISPLAY with `arg[15:8]` not 0. -/
  | patternTooWide
  deriving DecidableEq, Repr

/-- The item of R56 that refuses a word which matches no row. -/
def rejectOf (w : EventWord) : Reject :=
  let op := (opField w).toNat
  if op = 0 ∨ (8 ≤ op ∧ op ≤ 14) then .reservedOp
  else if op = 4 then .digitOutOfRange
  else if op = 6 then .patternTooWide
  else .operandNotZero

/-- The decoder: R50's rows in order, each with its operand's range; every other word is refused
(R56). -/
def decode (w : EventWord) : Except Reject Instr :=
  if rowHits rowSleep w then .ok (.sleep (sleepOperand w))
  else if rowHits rowTick w then .ok .tick
  else if rowHits rowResume w then .ok .resume
  else if rowHits rowEncode w && (digitOperand w).toNat ≤ 9 then .ok (.encode (digitOperand w))
  else if rowHits rowEncodeDp w then .ok .encodeDp
  else if rowHits rowDisplay w then .ok (.display (patternOperand w))
  else if rowHits rowFrame w then .ok .frame
  else if rowHits rowReset w then .ok .reset
  else .error (rejectOf w)

/-- The event word of bits `w`, of which the table gives `nbits`; the bits above are 0, and bits
20 and up (the padding of the last byte) are no part of a word (log 2). -/
def tableWord (nbits w : Nat) : EventWord := BitVec.ofNat 20 (w % 2 ^ nbits)

/-- What the decoder reads from an instruction whose bits are `w`, numbered as the opcode table
numbers them; none where it refuses. -/
def decodeTableWord (nbits w : Nat) : Option Instr :=
  match decode (tableWord nbits w) with
  | .ok i => some i
  | .error _ => none

/-- `{op, arg}` (R48). -/
def eventWord (op : BitVec 4) (arg : BitVec 16) : EventWord := op ++ arg

/-- The encoder: `op` from R50, the operand right-aligned and zero-extended in `arg` (R48, R49). -/
def encode : Instr → EventWord
  | .sleep n => eventWord 0x1#4 n
  | .tick => eventWord 0x2#4 0#16
  | .resume => eventWord 0x3#4 0#16
  | .encode d => eventWord 0x4#4 (d.zeroExtend 16)
  | .encodeDp => eventWord 0x5#4 0#16
  | .display p => eventWord 0x6#4 (p.zeroExtend 16)
  | .frame => eventWord 0x7#4 0#16
  | .reset => eventWord 0xF#4 0#16

end Sys2Proof
end

