-- ==== Sys2Proof/Config.lean ====
section
/-! DEFINITION. What is fixed for the block (00_scope.md R6), the type of its open parameters
(92_eei_decisions.md, "Open parameters"), and the one free value (20_memory.md R33). -/

namespace Sys2Proof.Config

/-- BLINK_WRAP, the modulus of `blink_cnt` (R6). -/
abbrev blinkWrap : Nat := 32

/-- N_DIGITS, the number of entries of the segment table (R6, R30). -/
abbrev nDigits : Nat := 10

/-- FRAME_DWELL_MS, the operand of the main loop's SLEEP, a tick count (R6, D25). -/
def frameDwell : Ticks := 100#16

/-- DISPLAY_PERIODS, the clock periods of one DISPLAY (R6, R89). -/
abbrev displayPeriods : Nat := 9

/-- TICK_MS_SLEEP, the tick period in ms while a sleep is in flight; timing only, no rule
depends on it (R6, R147). -/
abbrev tickMsSleep : Nat := 1

/-- The eight segments of a digit, in the letters of the document (R45). -/
inductive Segment where
  | a | b | c | d | e | f | g | dp
  deriving DecidableEq, Repr

/-- All eight segments. -/
def allSegments : List Segment := [.a, .b, .c, .d, .e, .f, .g, .dp]

/-- SEG_BITMAP: which bit of a pattern is which segment (R6, R45, open parameter). -/
structure SegBitmap where
  a : Fin 8
  b : Fin 8
  c : Fin 8
  d : Fin 8
  e : Fin 8
  f : Fin 8
  g : Fin 8
  dp : Fin 8
  deriving DecidableEq, Repr

/-- The open parameters of the block but for SEG_TABLE, which is the contents of the segment ROM.
"Not state; fixed before the run" (R149): State carries them as data that no step writes, so a
statement about every state is a statement about every choice of them (log 5). DESIGN CHOICE. -/
structure Params where
  /-- LED_RESET: the value of `led` after RESET (R22, D10). -/
  ledReset : LedPair
  /-- SEG_DP_ONLY: the DECIMAL_POINT_ONLY pattern (R83, D20). -/
  segDpOnly : Pattern
  /-- SEG_BITMAP (R45, D18). -/
  segBitmap : SegBitmap
  /-- TICK_MS_FREE, the nominal free-running tick period in ms; used by no rule (R147, U7). -/
  tickMsFree : Nat
  deriving DecidableEq, Repr

/-- FREE VALUE (log 10). What `seg` shows when `dp_only` = 0 and `digit` is above 9: "any 8-bit
value, drawn anew at each read" (R33, U4). The argument is the number of the draw. -/
opaque segUnspecified : Nat → Pattern

end Sys2Proof.Config
end

