-- ==== Sys2Proof/Machine/Defaults.lean ====
section
/-! DEFINITION. The default values the spec gives its open parameters (00_scope.md R6,
41_segment_encoder.md R82, 92_eei_decisions.md D10, D18 to D20): what State.reset and an unlisted
ROM address hold. -/

namespace Sys2Proof.Machine

open Sys2Proof.Config

/-- Default contents of SEG_TABLE by digit: rows 0 and 1 are the document's, rows 2 to 9 the
conventional shapes (R82, D19, log 9). PRESUMED by the spec itself for rows 2 to 9. -/
def segTableDefault : List Pattern :=
  [0x3F#8, 0x06#8, 0x5B#8, 0x4F#8, 0x66#8, 0x6D#8, 0x7D#8, 0x07#8, 0x7F#8, 0x6F#8]

/-- Default SEG_BITMAP: bit 0 = A ... bit 6 = G, bit 7 = DP (R45, D18, log 5). -/
def segBitmapDefault : SegBitmap :=
  { a := 0, b := 1, c := 2, d := 3, e := 4, f := 5, g := 6, dp := 7 }

/-- The open parameters at the spec's defaults (R6, log 5, log 6, log 23). DESIGN CHOICE. -/
def paramsDefault : Params :=
  { ledReset := 0b00#2, segDpOnly := 0x80#8, segBitmap := segBitmapDefault, tickMsFree := 65 }

end Sys2Proof.Machine
end

