-- ==== Sys2Proof/Machine/State.lean ====
section
/-! DEFINITION. The whole state: the five registers of TSB (10_state.md R10), the environment's
state (R23), the segment ROM (20_memory.md R30), the open parameters, the outputs an operation
produces (R19, R20, R148) and the events still to happen; the reasons a step can stop; and the
state after reset (R22). -/

namespace Sys2Proof.Machine

open Sys2Proof.Config

/-- The control state of "the timer resource" (R13). 0b11 is no state (R17, U14, log 18). -/
inductive Fsm where
  | idle | countingDown | requestWake
  deriving DecidableEq, Repr

/-- The position of MainLoop in its display sequence: a digit 0 to 9, or the sentinel meaning
"decimal point only" (R23, R53, log 18). -/
inductive Frame where
  | digit (d : Fin 10)
  | dp
  deriving DecidableEq, Repr

/-- Where the caller is in its program (R134, log 25). -/
inductive CallerPoint where
  /-- At the start: the boot action of R136 comes next. -/
  | boot
  /-- Booted: MainLoop for ever (R92). -/
  | mainLoop
  deriving DecidableEq, Repr

/-- The three bus lines (R88). -/
inductive Line where
  | data | clk | oe
  deriving DecidableEq, Repr

/-- One write of the line trace: `emit(line, level)` (R7, R88). -/
structure LineWrite where
  line : Line
  level : Level
  deriving DecidableEq, Repr

/-- One moment of the signal interface: the inputs of R19 (R58, R109). -/
structure Pins where
  rst : Bool
  tick : Bool
  resume : Bool
  sleepReq : Bool
  sleepMs : Ticks
  dpOnly : Bool
  digit : Digit
  deriving DecidableEq, Repr

/-- Something the outside world does next (log 1, log 8, log 13). -/
inductive Input where
  /-- An event word (R48). -/
  | word (w : EventWord)
  /-- A moment of the signal interface (R19, R58). -/
  | pins (p : Pins)
  /-- The caller's boot action: assert the digit-position select (R136, R137). -/
  | boot
  deriving DecidableEq, Repr

/-- What the latest step put on the outputs that hold nothing (R19, R20; log 11). -/
structure Outputs where
  /-- The pattern on `seg`, where the step evaluated SE (R81, R83). -/
  seg : Option Pattern
  /-- The pulse `tmr_clr` (R20). -/
  tmrClr : Bool
  /-- The pulse `toggle` (R20). -/
  toggle : Bool
  deriving DecidableEq, Repr

/-- No pattern evaluated, no pulse. -/
def Outputs.quiet : Outputs := { seg := none, tmrClr := false, toggle := false }

/-- The segment ROM: the entries that differ from the default table of R82, addresses rising
(log 9). -/
abbrev Memory := List Host.Cell

structure State where
  /-- `fsm` (R13). -/
  fsm : Fsm
  /-- `blink_cnt` (R11). -/
  blinkCnt : BlinkCount
  /-- `sleep_cnt` (R12). -/
  sleepCnt : Ticks
  /-- `led[1:0]` (R14). -/
  led : LedPair
  /-- `err[2:0]` (R15). -/
  err : ErrBits
  /-- `frame` (R23). -/
  frame : Frame
  /-- `sr_data` (R23, R88). -/
  srData : Level
  /-- `sr_clk` (R23, R88). -/
  srClk : Level
  /-- `sr_oe`, 0 = display blanked (R23, R88, C8). -/
  srOe : Level
  /-- `digit_sel` is asserted (R23, R137; its level is not in the spec). -/
  digitSel : Bool
  /-- Where the caller is in its program: RESET puts it at boot (R131, R133, R134, log 25). -/
  callerAt : CallerPoint
  /-- The segment ROM (R30): SEG_TABLE. -/
  rom : Memory
  /-- The other open parameters (R6). -/
  params : Params
  /-- The outputs of the latest step (R19, R20). -/
  out : Outputs
  /-- The line trace, oldest write first (R7, R148). -/
  trace : List LineWrite
  /-- Ghost count of `tmr_clr` pulses (R20). -/
  nClr : Nat
  /-- Ghost count of `toggle` pulses (R20). -/
  nToggle : Nat
  /-- The events still to happen, next first (log 1). -/
  inputs : List Input
  /-- How many unspecified values of `seg` have been drawn (R33, log 10). -/
  draws : Nat
  deriving DecidableEq, Repr

/-- Why the machine stops with a fault. -/
inductive Fault where
  /-- Raised by `step` when `inputs` is empty: the block waits for an event that never comes, the
  spec's "stuck" (R100, log 3). Safe: the model stops where the hardware waits. -/
  | noEvent
  deriving DecidableEq, Repr

/-- Why the machine gives an event no meaning: the spec's "refused" (R100). -/
inductive Refusal where
  /-- Raised by `exec` for an instruction without a meaning; no arm uses it. Safe. -/
  | notModelled (mnemonic : String)
  /-- Raised by `step` for an event word that spells no operation (R56, log 4). Safe. -/
  | invalidWord (why : Reject)
  /-- Raised by ENCODE for a digit 10 to 15, which no event word spells (R81, R106, log 17). Safe. -/
  | digitOutOfRange
  /-- Raised by FRAME when `fsm` is not IDLE (R91, R100, log 17). Safe. -/
  | frameNotIdle
  deriving DecidableEq, Repr

/-- The machine right after reset (R22): every register at the value of R22, the open parameters at
their defaults (log 5, log 6), the lines at the values the log names (log 7, log 8), the caller at the
start of its program (R133, R134), nothing
queued (log 1), no output yet (log 12). -/
def State.reset : State :=
  { fsm := .idle
    blinkCnt := 0#5
    sleepCnt := 0#16
    led := paramsDefault.ledReset
    err := 0#3
    frame := .digit 9
    srData := false
    srClk := false
    srOe := false
    digitSel := false
    callerAt := .boot
    rom := []
    params := paramsDefault
    out := Outputs.quiet
    trace := []
    nClr := 0
    nToggle := 0
    inputs := []
    draws := 0 }

end Sys2Proof.Machine
end

