-- ==== Sys2Proof/Machine/Flags.lean ====
section
/-! DEFINITION. The status outputs, pure functions of `fsm` (10_state.md R16, 60_exceptions.md R118,
R121), the 2-bit and 4-bit codes of `fsm` and `frame` (30_encoding.md R46, R53), and the cause codes
of `err` (60_exceptions.md R102). -/

namespace Sys2Proof.Machine

/-- The 2-bit code of `fsm` (R46). -/
def Fsm.code : Fsm → BitVec 2
  | .idle => 0b00#2
  | .countingDown => 0b01#2
  | .requestWake => 0b10#2

/-- The 4-bit code of `frame`: the digit, or 0xF for the sentinel (R53, D23). -/
def Frame.code : Frame → BitVec 4
  | .digit d => BitVec.ofNat 4 d.val
  | .dp => 0xF#4

/-- `lpm`: the CPU is in the low-power state (R16). -/
def State.lpm (s : State) : Bool :=
  match s.fsm with
  | .idle => false
  | .countingDown => true
  | .requestWake => false

/-- `wake`: wake-up requested, the caller has not yet resumed (R16). -/
def State.wake (s : State) : Bool :=
  match s.fsm with
  | .idle => false
  | .countingDown => false
  | .requestWake => true

/-- `busy`: a sleep is in flight (R16). -/
def State.busy (s : State) : Bool :=
  match s.fsm with
  | .idle => false
  | .countingDown => true
  | .requestWake => true

/-- `tmr_ms`: the timer-period select, 1 = 1 ms, 0 = the free period (R16, D12). -/
def State.tmrMs (s : State) : Bool :=
  match s.fsm with
  | .idle => false
  | .countingDown => true
  | .requestWake => true

/-- The period the timer runs at (R118); a label, no rule depends on it (R147). -/
inductive TickPeriod where
  | free | oneMs
  deriving DecidableEq, Repr

/-- The timer's mode by state (R118). -/
def State.tickPeriod (s : State) : TickPeriod := if s.tmrMs then .oneMs else .free

/-- The two power states of the CPU (R121). -/
inductive Power where
  | active | lowPower
  deriving DecidableEq, Repr

/-- The power state: low-power exactly while `lpm` = 1 (R121). -/
def State.power (s : State) : Power := if s.lpm then .lowPower else .active

/-- ERR_ZERO, cause code 1 (R102). -/
def errZero : ErrBits := 0b001#3

/-- ERR_BUSY, cause code 2 (R102). -/
def errBusy : ErrBits := 0b010#3

/-- ERR_PROTO, cause code 4 (R102). -/
def errProto : ErrBits := 0b100#3

/-- The causes for which SLEEP n is rejected: ERR_ZERO if `n` = 0, ERR_BUSY if a sleep is in
flight, both if both hold (R66, R103, R104, R110). -/
def sleepCauses (n : Ticks) (f : Fsm) : ErrBits :=
  (if n = 0#16 then errZero else 0#3) |||
    match f with
    | .idle => 0#3
    | .countingDown => errBusy
    | .requestWake => errBusy

end Sys2Proof.Machine
end

