-- ==== Sys2Proof/Machine/Operands.lean ====
section
/-! DEFINITION. The segment ROM and its one addressing form, "index = operand d" (20_memory.md R30
to R33, 41_segment_encoder.md R86), and the positions of a pattern's segments (30_encoding.md R45). -/

namespace Sys2Proof.Machine

open Sys2Proof.Config

/-- What an unlisted ROM address below 10 reads as: the default entry of R82 (log 9). -/
def romDefault (a : Nat) : Pattern := segTableDefault.getD a 0

/-- The cell listed at an address, if one is. -/
def cellAt : Memory → Nat → Option (BitVec 8)
  | [], _ => none
  | (k, v) :: m, a => if k = a then some v else cellAt m a

/-- SEG_TABLE[d], for the ten addresses that exist (R30). -/
def romEntry (m : Memory) (d : Fin 10) : Pattern := (cellAt m d.val).getD (romDefault d.val)

/-- `MemRead(a, 1)`, defined for 0 to 9 and for no other address (R7, R33, R86). -/
def romRead (m : Memory) (a : Nat) : Option Pattern :=
  if h : a < nDigits then some (romEntry m ⟨a, h⟩) else none

/-- The canonical form from address `lo` on: addresses strictly rising and below 10, no cell equal
to what the address reads as unlisted. -/
def cellsCanonical : Nat → Memory → Bool
  | _, [] => true
  | lo, (k, v) :: m =>
    decide (lo ≤ k) && decide (k < nDigits) && decide (v ≠ romDefault k) && cellsCanonical (k + 1) m

/-- The canonical form of the ROM's cells. -/
def Memory.wf (m : Memory) : Bool := cellsCanonical 0 m

/-- Lists a cell, keeping the addresses rising. -/
def cellInsert : Memory → Nat → BitVec 8 → Memory
  | [], a, v => [(a, v)]
  | (k, w) :: m, a, v =>
    if a < k then (a, v) :: (k, w) :: m
    else if k = a then (a, v) :: m
    else (k, w) :: cellInsert m a v

/-- Takes a cell out of the list. -/
def cellErase : Memory → Nat → Memory
  | [], _ => []
  | (k, w) :: m, a => if k = a then m else (k, w) :: cellErase m a

/-- One entry of SEG_TABLE set BEFORE a run, when the parameter is chosen (R6, R40); no operation
writes the ROM (R31). -/
def romPut (m : Memory) (d : Fin 10) (v : Pattern) : Memory :=
  if v = romDefault d.val then cellErase m d.val else cellInsert m d.val v

/-- The ROM that holds a given SEG_TABLE (R6). -/
def romOfTable (t : Vector Pattern 10) : Memory :=
  (List.finRange 10).foldl (fun m d => romPut m d t[d]) []

/-- The bit number of a segment (R45). -/
def segmentBit (b : SegBitmap) : Segment → Fin 8
  | .a => b.a
  | .b => b.b
  | .c => b.c
  | .d => b.d
  | .e => b.e
  | .f => b.f
  | .g => b.g
  | .dp => b.dp

/-- The segment is lit in the pattern: its bit is 1, active-high (R45, C1). -/
def segmentLit (b : SegBitmap) (p : Pattern) (x : Segment) : Bool :=
  p.getLsbD (segmentBit b x).val

end Sys2Proof.Machine
end

