-- ==== Sys2Proof/Machine/Ops.lean ====
section
/-! DEFINITION. The named operations over the state that the meanings share: outputs and pulses
(10_state.md R20), the line trace (42_environment_display_mainloop.md R88, R89), rejecting a request
(60_exceptions.md R101), the handler's two sub-steps and the return from it (40_timer_scheduler.md
R68, R69, 60_exceptions.md R113), the start and the end of a sleep (R66, R70), reset
(70_reset_and_hazards.md R131). -/

namespace Sys2Proof.Machine

open Sys2Proof.Config

/-- The start of an operation: no output of the one before is still shown, since a pulse is
"asserted by one operation, for that operation only" (R20). -/
def State.quiet (s : State) : State := { s with out := Outputs.quiet }

/-- `pulse(tmr_clr)` (R20). -/
def State.pulseClr (s : State) : State :=
  { s with out := { s.out with tmrClr := true }, nClr := s.nClr + 1 }

/-- `pulse(toggle)` (R20). -/
def State.pulseToggle (s : State) : State :=
  { s with out := { s.out with toggle := true }, nToggle := s.nToggle + 1 }

/-- `seg <- p`: an output, not a register (R81). -/
def State.showSeg (p : Pattern) (s : State) : State := { s with out := { s.out with seg := some p } }

/-- `raise`: the sticky bits are set and nothing else changes; no handler, no saved state, no
transfer of control (R101). The block's one form of taking an exception. -/
def State.raiseErr (code : ErrBits) (s : State) : State := { s with err := s.err ||| code }

/-- `emit(line, level)`: the line takes the level and the write joins the line trace (R7, R88). -/
def State.emit (s : State) (w : LineWrite) : State :=
  match w.line with
  | .data => { s with srData := w.level, trace := s.trace ++ [w] }
  | .clk => { s with srClk := w.level, trace := s.trace ++ [w] }
  | .oe => { s with srOe := w.level, trace := s.trace ++ [w] }

/-- A list of writes, in order. -/
def State.emitAll (ws : List LineWrite) (s : State) : State := ws.foldl State.emit s

/-- The level of `sr_data` in bit period `k`: bit `7-k` of the pattern, 0 in the ninth (R89, R52). -/
def periodLevel (p : Pattern) (k : Nat) : Level := if k ≤ 7 then p.getLsbD (7 - k) else false

/-- One bit period: lower the clock, set the data, raise the clock (R89 step 2, R143). -/
def bitPeriod (p : Pattern) (k : Nat) : List LineWrite :=
  [⟨.clk, false⟩, ⟨.data, periodLevel p k⟩, ⟨.clk, true⟩]

/-- The line trace of one DISPLAY: blank, nine bit periods, show (R89). -/
def displayTrace (p : Pattern) : List LineWrite :=
  [⟨.oe, false⟩] ++ (List.range displayPeriods).flatMap (bitPeriod p) ++ [⟨.oe, true⟩]

/-- DISPLAY's effect on the lines (R89). -/
def State.driveDisplay (p : Pattern) (s : State) : State := s.emitAll (displayTrace p)

/-- The blink sub-step of TICK (R68). -/
def State.blinkStep (s : State) : State :=
  if s.blinkCnt = 31#5 then State.pulseToggle { s with blinkCnt := 0#5, led := s.led ^^^ 0b11#2 }
  else { s with blinkCnt := s.blinkCnt + 1#5 }

/-- The countdown sub-step of TICK (R69). -/
def State.countdownStep (s : State) : State :=
  match s.fsm with
  | .countingDown =>
    { s with sleepCnt := s.sleepCnt - 1#16
             fsm := if s.sleepCnt - 1#16 = 0#16 then .requestWake else .countingDown }
  | .idle => s
  | .requestWake => s

/-- The handler's body: both sub-steps, on disjoint state (R67, R112). -/
def State.handleTick (s : State) : State := s.blinkStep.countdownStep

/-- Where control goes after the handler (R113). -/
inductive ControlReturn where
  /-- The caller, where it was preempted. -/
  | preemptedCaller
  /-- The low-power state: the CPU halts again. -/
  | lowPower
  /-- The caller, inside `sleep`, right after its suspension point. -/
  | insideSleep
  deriving DecidableEq, Repr

/-- The return from the handler, by `fsm` before and after the TICK (R113). It restores nothing in
the block. -/
def tickReturn (before after : Fsm) : ControlReturn :=
  match after with
  | .idle => .preemptedCaller
  | .countingDown => .lowPower
  | .requestWake => if before = .requestWake then .preemptedCaller else .insideSleep

/-- The start of a sleep: rejected with its causes, or the atomic effects (1) to (3) (R66). -/
def State.requestSleep (n : Ticks) (s : State) : State :=
  if sleepCauses n s.fsm = 0#3 then State.pulseClr { s with sleepCnt := n, fsm := .countingDown }
  else s.raiseErr (sleepCauses n s.fsm)

/-- The end of a sleep: effect (5) and the return to IDLE, or ERR_PROTO (R70). -/
def State.completeSleep (s : State) : State :=
  match s.fsm with
  | .requestWake => State.pulseClr { s with fsm := .idle }
  | .idle => s.raiseErr errProto
  | .countingDown => s.raiseErr errProto

/-- The next frame: 9 down to 0, then the decimal point, then 9 again (R91). -/
def Frame.next : Frame → Frame
  | .digit d => if d = 0 then .dp else .digit (d - 1)
  | .dp => .digit 9

/-- The pattern of a frame (R91). -/
def State.framePattern (s : State) : Pattern :=
  match s.frame with
  | .digit d => romEntry s.rom d
  | .dp => s.params.segDpOnly

/-- RESET's writes: every register of R10, and `frame`; the lines and `digit_sel` are left alone, and
"the caller restarts from boot" (R131). -/
def State.resetBlock (s : State) : State :=
  State.pulseClr
    { s with fsm := .idle, blinkCnt := 0#5, sleepCnt := 0#16, led := s.params.ledReset
             err := 0#3
             frame := .digit 9
             callerAt := .boot }

end Sys2Proof.Machine
end

