-- ==== Sys2Proof/Machine/Environment.lean ====
section
/-! DEFINITION. The environment's operations: DISPLAY, FRAME (42_environment_display_mainloop.md R89,
R91). -/

namespace Sys2Proof.Machine

open Sys2Proof.Config

/-- DISPLAY p: serialise the pattern on the three lines, as one atomic step (R89, R90, D24, log 14). -/
def execDisplay (p : Pattern) (s : State) : Host.Outcome State Fault Refusal :=
  .next (s.quiet.driveDisplay p)

/-- FRAME in IDLE: encode the frame, display it, SLEEP 100, advance the frame (R91, log 21). -/
def State.runFrame (s : State) : State :=
  let slept := ((s.showSeg s.framePattern).driveDisplay s.framePattern).requestSleep frameDwell
  { slept with frame := s.frame.next }

/-- FRAME: "enabled only when fsm = IDLE", refused in any other state (R91). -/
def execFrame (s : State) : Host.Outcome State Fault Refusal :=
  match s.fsm with
  | .idle => .next s.quiet.runFrame
  | .countingDown => .refused .frameNotIdle
  | .requestWake => .refused .frameNotIdle

/-- The bits the external shift register samples from a line trace: `sr_data` at each 0-to-1 change
of `sr_clk`, from the levels the two lines had before (R88). -/
def sampledBits : Level → Level → List LineWrite → List Level
  | _, _, [] => []
  | clk, data, w :: ws =>
    match w.line with
    | .clk => (if w.level && !clk then [data] else []) ++ sampledBits w.level data ws
    | .data => sampledBits clk w.level ws
    | .oe => sampledBits clk data ws

end Sys2Proof.Machine
end

