-- ==== Sys2Proof/Machine/Reset.lean ====
section
/-! DEFINITION. The reset family: RESET (70_reset_and_hazards.md R131). -/

namespace Sys2Proof.Machine

/-- RESET: put the block in its first state; never rejected (R131). -/
def execReset (s : State) : Host.Outcome State Fault Refusal :=
  .next s.quiet.resetBlock

end Sys2Proof.Machine
end

