-- ==== Sys2Proof/Machine/SegmentEncoder.lean ====
section
/-! DEFINITION. The SegmentEncoder family: ENCODE, ENCODE_DP (41_segment_encoder.md R81, R83). They
write no state; `seg` is an output. -/

namespace Sys2Proof.Machine

/-- ENCODE d: `seg <- MemRead(d, 1)` (R81); a digit 10 to 15 is no operation and is refused (R106,
log 17). -/
def execEncode (d : Digit) (s : State) : Host.Outcome State Fault Refusal :=
  match romRead s.rom d.toNat with
  | some p => .next (s.quiet.showSeg p)
  | none => .refused .digitOutOfRange

/-- ENCODE_DP: `seg <- SEG_DP_ONLY` (R83). -/
def execEncodeDp (s : State) : Host.Outcome State Fault Refusal :=
  .next (s.quiet.showSeg s.params.segDpOnly)

end Sys2Proof.Machine
end

