-- ==== Sys2Proof/Machine/TimerScheduler.lean ====
section
/-! DEFINITION. The TimerScheduler family: SLEEP, TICK, RESUME (40_timer_scheduler.md R66 to R70). -/

namespace Sys2Proof.Machine

/-- SLEEP n (R66). -/
def execSleep (n : Ticks) (s : State) : Host.Outcome State Fault Refusal :=
  .next (s.quiet.requestSleep n)

/-- TICK (R67): never rejected, enabled in every state. -/
def execTick (s : State) : Host.Outcome State Fault Refusal :=
  .next s.quiet.handleTick

/-- RESUME (R70). -/
def execResume (s : State) : Host.Outcome State Fault Refusal :=
  .next s.quiet.completeSleep

end Sys2Proof.Machine
end

