-- ==== Sys2Proof/Machine/Dispatch.lean ====
section
/-! DEFINITION. One arm per constructor of Instr: each operation's meaning, by its full name. -/

namespace Sys2Proof.Machine

def exec (i : Instr) (s : State) : Host.Outcome State Fault Refusal :=
  match i with
  | .sleep n => Sys2Proof.Machine.execSleep n s
  | .tick => Sys2Proof.Machine.execTick s
  | .resume => Sys2Proof.Machine.execResume s
  | .encode d => Sys2Proof.Machine.execEncode d s
  | .encodeDp => Sys2Proof.Machine.execEncodeDp s
  | .display p => Sys2Proof.Machine.execDisplay p s
  | .frame => Sys2Proof.Machine.execFrame s
  | .reset => Sys2Proof.Machine.execReset s

end Sys2Proof.Machine
end

