-- ==== Sys2Proof/Machine/Fetch.lean ====
section
/-! DEFINITION. Taking the next event (70_reset_and_hazards.md R148, log 1): an event word
(30_encoding.md R48), a moment of the signal interface (10_state.md R19, 30_encoding.md R58,
60_exceptions.md R109), or the boot action (70_reset_and_hazards.md R136). -/

namespace Sys2Proof.Machine

open Sys2Proof.Config

/-- The operation a moment performs first: `rst`, then `tick`, then `resume`, then `sleep_req`
(R109). -/
def firstOp (p : Pins) : Option Instr :=
  if p.rst then some .reset
  else if p.tick then some .tick
  else if p.resume then some .resume
  else if p.sleepReq then some (.sleep p.sleepMs)
  else none

/-- What is left of a moment after its first operation: after `rst` "every other event input of
that moment is ignored" (R109). -/
def afterFirst (p : Pins) : Pins :=
  if p.rst then { p with rst := false, tick := false, resume := false, sleepReq := false }
  else if p.tick then { p with tick := false }
  else if p.resume then { p with resume := false }
  else { p with sleepReq := false }

/-- The rest of a moment, put back at the front of the events if an operation is left in it. -/
def leftover (p : Pins) : List Input :=
  match firstOp (afterFirst p) with
  | some _ => [.pins (afterFirst p)]
  | none => []

/-- What the combinational `seg` shows for `dp_only` and `digit` (R19, R33): the third case is any
value, drawn anew (log 10). -/
def segOutput (p : Pins) (s : State) : Pattern :=
  if p.dpOnly then s.params.segDpOnly
  else match romRead s.rom p.digit.toNat with
    | some v => v
    | none => segUnspecified s.draws

/-- The evaluation of `seg` draws an unspecified value (R33). -/
def segDraws (p : Pins) : Bool := !p.dpOnly && decide (9 < p.digit.toNat)

/-- The state from which a moment's operation is performed: the event taken, the draw counted. -/
def State.takePins (p : Pins) (rest : List Input) (s : State) : State :=
  { s with inputs := leftover p ++ rest, draws := if segDraws p then s.draws + 1 else s.draws }

/-- The caller's boot action: the digit select is asserted, "once at start" (R136 item 2, R137, log
8), and MainLoop is entered (R136 item 4, log 25). -/
def State.performBoot (s : State) : State :=
  { s.quiet with digitSel := true, callerAt := .mainLoop }

/-- What the next event asks for. -/
inductive Fetched where
  /-- No event is left. -/
  | none
  /-- A word that spells no operation (R56). -/
  | invalid (why : Reject)
  /-- An operation, the state to perform it from, and what `seg` shows meanwhile, if it is the
  signal interface that is driven. -/
  | run (i : Instr) (s : State) (seg : Option Pattern)
  /-- No operation, only this next state. -/
  | only (s : State)
  deriving DecidableEq, Repr

/-- Takes the next event. -/
def fetch (s : State) : Fetched :=
  match s.inputs with
  | [] => .none
  | .word w :: rest =>
    match decode w with
    | .ok i => .run i { s with inputs := rest } Option.none
    | .error why => .invalid why
  | .pins p :: rest =>
    match firstOp p with
    | some i => .run i (s.takePins p rest) (some (segOutput p s))
    | Option.none => .only ((s.takePins p rest).quiet.showSeg (segOutput p s))
  | .boot :: rest => .only { s with inputs := rest }.performBoot

/-- The moment's `seg` beside the operation's own outputs. -/
def withSeg (seg : Option Pattern) (o : Host.Outcome State Fault Refusal) :
    Host.Outcome State Fault Refusal :=
  match seg, o with
  | some p, .next t => .next (t.showSeg p)
  | _, o => o

/-- An event put before all others. -/
def State.pushInput (e : Input) (s : State) : State := { s with inputs := e :: s.inputs }

end Sys2Proof.Machine
end

