-- ==== Sys2Proof/Machine/Step.lean ====
section
/-! DEFINITION. One step of the machine: take the next event and perform its operation
(20_memory.md R36, 70_reset_and_hazards.md R148); and placing a word as the next event. -/

namespace Sys2Proof.Machine

/-- One step: one operation. With no event left the block is stuck (R100, log 3); a word that spells
no operation is refused (R56, log 4). -/
def step (s : State) : Host.Outcome State Fault Refusal :=
  match fetch s with
  | .none => .fault .noEvent
  | .invalid why => .refused (.invalidWord why)
  | .run i t seg => withSeg seg (exec i t)
  | .only t => .next t

/-- `s` with the word of bits `w` as its next event (log 1, log 2). -/
def State.withFetchWord (s : State) (nbits w : Nat) : State :=
  s.pushInput (.word (tableWord nbits w))

end Sys2Proof.Machine
end

