-- ==== Sys2Proof/Machine/Pseudo.lean ====
section
/-! DEFINITION. The pseudo-operations and their expansions (30_encoding.md R55). None has an `op`
value. -/

namespace Sys2Proof.Machine

open Sys2Proof.Config

/-- The pseudo-operations (R55). -/
inductive Pseudo where
  | ticks (k : Nat)
  | callSleep (n : Ticks)
  | showDigit (d : Fin 10)
  | showDp
  | mainloopFrame
  | mainloopCycle
  deriving DecidableEq, Repr

/-- `TICKS k`: `k` consecutive ticks (R55). -/
def ticks (k : Nat) : List Instr := List.replicate k .tick

/-- `CALL_SLEEP n`: the blocking `sleep(n)` seen from outside (R55, R73). R55 gives the expansion for
`n >= 1` issued in IDLE only; that the same words are produced for `n` = 0 and for every state is a
DESIGN CHOICE (log 24). -/
def callSleep (n : Ticks) : List Instr := [.sleep n] ++ ticks n.toNat ++ [.resume]

/-- `MAINLOOP_FRAME`: one whole iteration of MainLoop (R55). -/
def mainloopFrame : List Instr := [.frame] ++ ticks frameDwell.toNat ++ [.resume]

/-- `k` iterations of MainLoop. -/
def mainloopFrames : Nat → List Instr
  | 0 => []
  | k + 1 => mainloopFrame ++ mainloopFrames k

/-- `MAINLOOP_CYCLE`: eleven iterations (R55). -/
def mainloopCycle : List Instr := mainloopFrames 11

/-- The expansion of a pseudo-operation; SHOW and SHOW_DP name the patterns of the parameters of
`s` (R55). The state is not asked whether it is in IDLE, nor CALL_SLEEP whether `n >= 1`: DESIGN
CHOICE (log 24). -/
def expand (s : State) : Pseudo → List Instr
  | .ticks k => ticks k
  | .callSleep n => callSleep n
  | .showDigit d => [.encode (BitVec.ofNat 4 d.val), .display (romEntry s.rom d)]
  | .showDp => [.encodeDp, .display s.params.segDpOnly]
  | .mainloopFrame => mainloopFrame
  | .mainloopCycle => mainloopCycle

/-- Events of any kind, the boot action among them, put after those to come (log 1). -/
def State.loadEvents (es : List Input) (s : State) : State := { s with inputs := s.inputs ++ es }

/-- A run of a program: its event words become the events to come (R148, log 1). -/
def State.load (is : List Instr) (s : State) : State :=
  s.loadEvents (is.map fun i => .word (encode i))

end Sys2Proof.Machine
end

