-- ==== Sys2Proof/Machine/Caller.lean ====
section
/-! DEFINITION. The caller agent: its program, boot and then MainLoop (70_reset_and_hazards.md R134,
R136, 42_environment_display_mainloop.md R92), and what the host side may do (R93). They restrict the CALLER of a whole-system model, never the
block, whose transition function is total (90_conflicts.md C11, log 22). -/

namespace Sys2Proof.Machine

/-- MainLoop's next operation: FRAME when the last sleep has returned, nothing while the CPU is
halted, RESUME after a wake-up (R92, R113). -/
def mainLoopNext (s : State) : Option Instr :=
  match s.fsm with
  | .idle => some .frame
  | .countingDown => none
  | .requestWake => some .resume

/-- The caller's whole program: at boot the boot action of R136, then MainLoop for ever, and nothing
while the CPU is halted (R134, R92, R9). -/
def callerNext (s : State) : Option Input :=
  if s.lpm then none
  else match s.callerAt with
    | .boot => some .boot
    | .mainLoop => (mainLoopNext s).map fun i => .word (encode i)

/-- The duties of R93: SLEEP only in IDLE with `n >= 1`; RESUME only after a wake-up, and nothing
else between wake-up and RESUME; nothing while `lpm` = 1; ENCODE only with `d <= 9`. TICK and RESET
are no moves of the caller and are always allowed. -/
def callerMay (i : Instr) (s : State) : Bool :=
  match i with
  | .sleep n => decide (s.fsm = .idle ∧ n ≠ 0#16)
  | .tick => true
  | .resume => decide (s.fsm = .requestWake)
  | .encode d => decide (s.fsm = .idle ∧ d.toNat ≤ 9)
  | .encodeDp => decide (s.fsm = .idle)
  | .display _ => decide (s.fsm = .idle)
  | .frame => decide (s.fsm = .idle)
  | .reset => true

end Sys2Proof.Machine
end

