-- ==== Sys2Proof/Machine/System.lean ====
section
/-! DEFINITION. The whole system, block and caller: the three agents take turns (00_scope.md R9), the
caller by its own program from boot on (70_reset_and_hazards.md R134), under any schedule of ticks and
resets (log 22, log 25). -/

namespace Sys2Proof.Machine

/-- Which agent moves next (R9). -/
inductive Turn where
  | caller | timer | reset
  deriving DecidableEq, Repr

/-- The event an agent makes happen in its turn; the halted caller makes none (R9). -/
def Turn.event (u : Turn) (s : State) : Option Input :=
  match u with
  | .caller => callerNext s
  | .timer => some (.word (encode .tick))
  | .reset => some (.word (encode .reset))

/-- One turn: the agent's event is the next one. -/
def systemStep (u : Turn) (s : State) : Host.Outcome State Fault Refusal :=
  match u.event s with
  | some e => step (s.pushInput e)
  | none => .next s

/-- A schedule of turns, to its end. -/
def systemRun : List Turn → State → Host.Outcome State Fault Refusal
  | [], s => .next s
  | u :: us, s =>
    match systemStep u s with
    | .next t => systemRun us t
    | .fault r => .fault r
    | .refused r => .refused r

end Sys2Proof.Machine
end

