-- ==== Sys2Proof/Machine/Text.lean ====
section
/-! DEFINITION. The textual syntax of one operation (30_encoding.md R54): the mnemonic in capitals,
then its operand if it has one, in decimal or `0x` hexadecimal, one operation per line, a semicolon
starts a comment. What R54 leaves open is log 20. -/

namespace Sys2Proof.Machine

/-- The mnemonic of an operation (R50). -/
def mnemonicText : Instr → List Char
  | .sleep _ => ['S', 'L', 'E', 'E', 'P']
  | .tick => ['T', 'I', 'C', 'K']
  | .resume => ['R', 'E', 'S', 'U', 'M', 'E']
  | .encode _ => ['E', 'N', 'C', 'O', 'D', 'E']
  | .encodeDp => ['E', 'N', 'C', 'O', 'D', 'E', '_', 'D', 'P']
  | .display _ => ['D', 'I', 'S', 'P', 'L', 'A', 'Y']
  | .frame => ['F', 'R', 'A', 'M', 'E']
  | .reset => ['R', 'E', 'S', 'E', 'T']

/-- A blank between words (log 20). -/
def isBlank (c : Char) : Bool := c == ' ' || c == '\t'

/-- The line without its comment. -/
def dropComment : List Char → List Char
  | [] => []
  | c :: cs => if c == ';' then [] else c :: dropComment cs

/-- The words of a line; `cur` is the word being read, last character first. -/
def splitWords : List Char → List Char → List (List Char)
  | [], cur => if cur.isEmpty then [] else [cur.reverse]
  | c :: cs, cur =>
    if isBlank c then (if cur.isEmpty then [] else [cur.reverse]) ++ splitWords cs []
    else splitWords cs (c :: cur)

/-- The value of a digit, decimal or hexadecimal. -/
def digitValue (c : Char) : Option Nat :=
  if 48 ≤ c.toNat ∧ c.toNat ≤ 57 then some (c.toNat - 48)
  else if 65 ≤ c.toNat ∧ c.toNat ≤ 70 then some (c.toNat - 55)
  else if 97 ≤ c.toNat ∧ c.toNat ≤ 102 then some (c.toNat - 87)
  else none

/-- The digits of a number in a base, most significant first. -/
def readDigits (base : Nat) : Nat → List Char → Option Nat
  | acc, [] => some acc
  | acc, c :: cs =>
    match digitValue c with
    | some v => if v < base then readDigits base (acc * base + v) cs else none
    | none => none

/-- A number: decimal, or hexadecimal after `0x` (R7, R54). -/
def readNumber : List Char → Option Nat
  | [] => none
  | '0' :: 'x' :: [] => none
  | '0' :: 'x' :: cs => readDigits 16 0 cs
  | cs => readDigits 10 0 cs

/-- The operations without an operand, by mnemonic (R54). -/
def readBare (m : List Char) : Option Instr :=
  [Instr.tick, .resume, .encodeDp, .frame, .reset].find? fun i => mnemonicText i == m

/-- The operations with an operand, which must be in its range (R49, R54). -/
def readWithOperand (m : List Char) (n : Nat) : Option Instr :=
  if m == mnemonicText (.sleep 0) then
    (if n < 65536 then some (.sleep (BitVec.ofNat 16 n)) else none)
  else if m == mnemonicText (.encode 0) then
    (if n ≤ 9 then some (.encode (BitVec.ofNat 4 n)) else none)
  else if m == mnemonicText (.display 0) then
    (if n < 256 then some (.display (BitVec.ofNat 8 n)) else none)
  else none

/-- One line: `none` where it is no line of the syntax, `some none` where it holds no operation
(R54). -/
def parseLine (l : List Char) : Option (Option Instr) :=
  match splitWords (dropComment l) [] with
  | [] => some none
  | [m] => (readBare m).map some
  | [m, a] => (readNumber a).bind fun n => (readWithOperand m n).map some
  | _ => none

/-- A program, one operation per line (R54). -/
def parseLines : List (List Char) → Option (List Instr)
  | [] => some []
  | l :: ls =>
    match parseLine l, parseLines ls with
    | some (some i), some is => some (i :: is)
    | some none, some is => some is
    | _, _ => none

/-- A hexadecimal digit in capitals. -/
def hexChar (v : Nat) : Char := if v < 10 then Char.ofNat (48 + v) else Char.ofNat (55 + v)

/-- An operand in `0x` hexadecimal, four digits. -/
def hexText (v : BitVec 16) : List Char :=
  ['0', 'x', hexChar (v.toNat / 4096 % 16), hexChar (v.toNat / 256 % 16),
    hexChar (v.toNat / 16 % 16), hexChar (v.toNat % 16)]

/-- An operation in the syntax of R54. -/
def render (i : Instr) : List Char :=
  match i with
  | .sleep n => mnemonicText i ++ [' '] ++ hexText n
  | .tick => mnemonicText i
  | .resume => mnemonicText i
  | .encode d => mnemonicText i ++ [' '] ++ hexText (d.zeroExtend 16)
  | .encodeDp => mnemonicText i
  | .display p => mnemonicText i ++ [' '] ++ hexText (p.zeroExtend 16)
  | .frame => mnemonicText i
  | .reset => mnemonicText i

end Sys2Proof.Machine
end

