-- ==== Sys2Proof/Safety.lean ====
section
/-! DEFINITION. The terms claims use: runs (70_reset_and_hazards.md R148), the fairness of a run without
end (00_scope.md R8, 40_timer_scheduler.md R75), launch premises (R149),
the invariants of reachable states (10_state.md R17), what is fixed of any segment table
(41_segment_encoder.md R84), a caller that keeps its duties (42_environment_display_mainloop.md R93),
and which parts of the state two states share. -/

namespace Sys2Proof.Machine

open Sys2Proof.Config

/-- A finite sequence of operations, each applied to the state left by the one before (R36, R148). -/
def execAll : List Instr → State → Host.Outcome State Fault Refusal
  | [], s => .next s
  | i :: is, s =>
    match exec i s with
    | .next t => execAll is t
    | .fault r => .fault r
    | .refused r => .refused r

/-- Each operation of the run is one the caller may issue in the state it meets (R93). Whether it
completes there is not asked: an operation that faulted or was refused would end the run here. -/
def dutiful : List Instr → State → Bool
  | [], _ => true
  | i :: is, s =>
    callerMay i s &&
      match exec i s with
      | .next t => dutiful is t
      | .fault _ => true
      | .refused _ => true

/-- The operation starts a sleep: an accepted SLEEP, FRAME's included (R66, R91). -/
def startsSleep (i : Instr) (s : State) : Bool :=
  match i with
  | .sleep n => decide (n ≠ 0#16 ∧ s.fsm = .idle)
  | .tick => false
  | .resume => false
  | .encode _ => false
  | .encodeDp => false
  | .display _ => false
  | .frame => decide (s.fsm = .idle)
  | .reset => false

/-- The operation ends a sleep: an accepted RESUME (R70). -/
def endsSleep (i : Instr) (s : State) : Bool :=
  match i with
  | .sleep _ => false
  | .tick => false
  | .resume => decide (s.fsm = .requestWake)
  | .encode _ => false
  | .encodeDp => false
  | .display _ => false
  | .frame => false
  | .reset => false

/-- How many operations of a run have a property of the operation and the state it meets. -/
def countAlong (p : Instr → State → Bool) : List Instr → State → Nat
  | [], _ => 0
  | i :: is, s =>
    (p i s).toNat +
      match exec i s with
      | .next t => countAlong p is t
      | .fault _ => 0
      | .refused _ => 0

/-- A run without end: `st 0` is where it starts, and operation `k` takes `st k` to `st (k + 1)`
(R36; "the system has no end", R148). `ops` is the schedule: the caller's program, the ticks and the
resets, merged into one sequence (R9). -/
abbrev IsExecution (ops : Nat → Instr) (st : Nat → State) : Prop :=
  ∀ k, exec (ops k) (st k) = .next (st (k + 1))

/-- Weak fairness of TICK: the block does not stay in COUNTING_DOWN for ever without a TICK (R8,
R75 (a), D1). -/
def tickFair (ops : Nat → Instr) (st : Nat → State) : Prop :=
  ∀ k, ∃ j, k ≤ j ∧ ((st j).fsm ≠ .countingDown ∨ ops j = .tick)

/-- Weak fairness of RESUME: the block does not stay in REQUEST_WAKE for ever without a RESUME (R8,
R75 (b), D1). -/
def resumeFair (ops : Nat → Instr) (st : Nat → State) : Prop :=
  ∀ k, ∃ j, k ≤ j ∧ ((st j).fsm ≠ .requestWake ∨ ops j = .resume)

/-- The fairness that takes the place of time: "weak fairness of two steps and nothing else" (R8,
R75). A premise of claims about runs without end, not a property of one step (log 16). -/
structure FairRun (ops : Nat → Instr) (st : Nat → State) : Prop where
  execution : IsExecution ops st
  tick : tickFair ops st
  resume : resumeFair ops st

/-- `no_fault` (R149). -/
abbrev noFault (s : State) : Prop := s.err = 0#3

/-- `nothing_in_flight` (R149). -/
abbrev nothingInFlight (s : State) : Prop := s.fsm = .idle

/-- `blink_at(b)` (R149). -/
abbrev blinkAt (b : BlinkCount) (s : State) : Prop := s.blinkCnt = b

/-- `led_at(L)` (R149). -/
abbrev ledAt (l : LedPair) (s : State) : Prop := s.led = l

/-- `frame_at(f)` (R149). -/
abbrev frameAt (f : Frame) (s : State) : Prop := s.frame = f

/-- `params(P)` (R149). -/
abbrev paramsAre (p : Params) (m : Memory) (s : State) : Prop := s.params = p ∧ s.rom = m

/-- A run is quiescent when `fsm = IDLE` (R148). -/
abbrev quiescent (s : State) : Prop := s.fsm = .idle

/-- What the document fixes of any SEG_TABLE and SEG_DP_ONLY (R84 items 1 to 3), in any layout. -/
def tableAsDocumented (b : SegBitmap) (m : Memory) (dpOnly : Pattern) : Bool :=
  [Segment.a, .b, .c, .d, .e, .f].all (fun x => segmentLit b (romEntry m 0) x) &&
  !segmentLit b (romEntry m 0) .g &&
  allSegments.all (fun x => segmentLit b (romEntry m 1) x == (x == .b || x == .c)) &&
  allSegments.all (fun x => segmentLit b dpOnly x == (x == .dp))

/-- What the spec adds as its own choice: the decimal point is dark in all ten entries, and the
eleven patterns are pairwise different (R84, D19, D20). -/
def tableAsChosen (b : SegBitmap) (m : Memory) (dpOnly : Pattern) : Bool :=
  (List.finRange 10).all fun d =>
    !segmentLit b (romEntry m d) .dp && romEntry m d != dpOnly &&
    (List.finRange 10).all fun e => d == e || romEntry m d != romEntry m e

/-- The invariants of R17 (items 2, 3 and 5; items 1 and 4 hold by the types, item 6 speaks of runs)
and the canonical form of the ROM; and that a shown pulse has its cause behind it: after a `toggle`
the count is 0, after a `tmr_clr` the block is not in REQUEST_WAKE (R20); and that MainLoop runs only once the digit
select is asserted (R136, log 25). -/
structure Inv (s : State) : Prop where
  counting : s.fsm = .countingDown → 1 ≤ s.sleepCnt.toNat ∧ s.sleepCnt.toNat ≤ 65535
  destroyed : s.fsm ≠ .countingDown → s.sleepCnt = 0#16
  ledPair : (s.led.getLsbD 1 ^^ s.led.getLsbD 0) =
    (s.params.ledReset.getLsbD 1 ^^ s.params.ledReset.getLsbD 0)
  romCanonical : Memory.wf s.rom = true
  toggled : s.out.toggle = true → s.blinkCnt = 0#5 ∧ 0 < s.nToggle
  cleared : s.out.tmrClr = true → s.fsm ≠ .requestWake ∧ 0 < s.nClr
  booted : s.callerAt = .mainLoop → s.digitSel = true

/-- The control state and the countdown are the same. -/
structure SameTimer (s t : State) : Prop where
  fsm : t.fsm = s.fsm
  sleepCnt : t.sleepCnt = s.sleepCnt

/-- The blink counter and the LEDs are the same. -/
structure SameBlink (s t : State) : Prop where
  blinkCnt : t.blinkCnt = s.blinkCnt
  led : t.led = s.led

/-- The bus lines and the line trace are the same. -/
structure SameLines (s t : State) : Prop where
  srData : t.srData = s.srData
  srClk : t.srClk = s.srClk
  srOe : t.srOe = s.srOe
  trace : t.trace = s.trace

/-- What no operation changes: every byte of the ROM, the parameters, the digit select, and the
model's own bookkeeping. -/
structure SameSetup (s t : State) : Prop where
  rom : ∀ a, romRead t.rom a = romRead s.rom a
  params : t.params = s.params
  digitSel : t.digitSel = s.digitSel
  inputs : t.inputs = s.inputs
  draws : t.draws = s.draws

/-- What no operation but RESET changes: all that, and where the caller is in its program. -/
structure SameFixed (s t : State) : Prop extends SameSetup s t where
  callerAt : t.callerAt = s.callerAt

/-- No pulse is given. -/
structure NoPulse (s t : State) : Prop where
  tmrClr : t.out.tmrClr = false
  toggle : t.out.toggle = false
  nClr : t.nClr = s.nClr
  nToggle : t.nToggle = s.nToggle

/-- `tmr_clr` is pulsed and `toggle` is not. -/
structure ClrPulse (s t : State) : Prop where
  tmrClr : t.out.tmrClr = true
  toggle : t.out.toggle = false
  nClr : t.nClr = s.nClr + 1
  nToggle : t.nToggle = s.nToggle

/-- Both LED outputs inverted if the number of toggles is odd, else as before (R68, R73). -/
def ledAfter (toggles : Nat) (l : LedPair) : LedPair := if toggles % 2 = 1 then l ^^^ 0b11#2 else l

end Sys2Proof.Machine
end

