-- ==== Sys2Proof/Certificates/Slice0/Obligations.lean ====
section
/-! DEFINITION. The statements for the provers, in the order of OBLIGATIONS.json: decoding, stepping,
the signal interface, TimerScheduler, SegmentEncoder, the environment, reset, invariants, the caller,
the text syntax. -/

open Sys2Proof Sys2Proof.Machine

/-! ### Event words -/

/-- The words of R54's listing and of the decoder vectors, written out, decode as the spec says. -/
def Obligations.SampleEventWordsDecode : Prop :=
  decode 0x10064#20 = .ok (.sleep 100) ∧
  decode 0x10000#20 = .ok (.sleep 0) ∧
  decode 0x20000#20 = .ok .tick ∧
  decode 0x30000#20 = .ok .resume ∧
  decode 0x40009#20 = .ok (.encode 9) ∧
  decode 0x50000#20 = .ok .encodeDp ∧
  decode 0x6006F#20 = .ok (.display 0x6F) ∧
  decode 0x70000#20 = .ok .frame ∧
  decode 0xF0000#20 = .ok .reset ∧
  decode 0x4000A#20 = .error .digitOutOfRange ∧
  decode 0x60100#20 = .error .patternTooWide ∧
  decode 0x20001#20 = .error .operandNotZero ∧
  decode 0xE0000#20 = .error .reservedOp

/-- Every operation is read back from its word, at every operand (R48 to R50). -/
def Obligations.DecodeOfEncodeIsTheOperation : Prop :=
  ∀ i : Instr, i.WellFormed → decode (encode i) = .ok i

/-- Every accepted word is the word of the operation read from it, so no two words spell one
operation and no bit of an accepted word is dropped (R48, R49). -/
def Obligations.EncodeOfDecodeIsTheWord : Prop :=
  ∀ (w : EventWord) (i : Instr), decode w = .ok i → i.WellFormed ∧ encode i = w

/-- R50: each operation's `match`, `mask`, operand field and range, and its agent. -/
def Obligations.OpcodeMapFixesEachOperation : Prop :=
  ∀ w : EventWord,
    (∀ n, decode w = .ok (.sleep n) ↔
      w &&& 0xF0000#20 = 0x10000#20 ∧ n.toNat = w.toNat % 65536) ∧
    (decode w = .ok .tick ↔ w &&& 0xFFFFF#20 = 0x20000#20) ∧
    (decode w = .ok .resume ↔ w &&& 0xFFFFF#20 = 0x30000#20) ∧
    (∀ d, decode w = .ok (.encode d) ↔
      w &&& 0xFFFF0#20 = 0x40000#20 ∧ d.toNat = w.toNat % 16 ∧ d.toNat ≤ 9) ∧
    (decode w = .ok .encodeDp ↔ w &&& 0xFFFFF#20 = 0x50000#20) ∧
    (∀ p, decode w = .ok (.display p) ↔
      w &&& 0xFFF00#20 = 0x60000#20 ∧ p.toNat = w.toNat % 256) ∧
    (decode w = .ok .frame ↔ w &&& 0xFFFFF#20 = 0x70000#20) ∧
    (decode w = .ok .reset ↔ w &&& 0xFFFFF#20 = 0xF0000#20) ∧
    (∀ i, decode w = .ok i →
      i.agent = if i = .tick then .timerHandler else if i = .reset then .reset else .caller)

/-- The four items of refused words (30_encoding.md section 4), each by its name, and no other word
is refused. The last clause is the model's choice, on its queue of events: a refused word ends the
step with a refusal, no next state, no operation (log 4, log 1). -/
def Obligations.RefusedWordsAreTheFourItems : Prop :=
  ∀ w : EventWord,
    let op := w.toNat / 65536
    let arg := w.toNat % 65536
    let item1 := op = 0 ∨ (8 ≤ op ∧ op ≤ 14)
    let item2 := (op = 2 ∨ op = 3 ∨ op = 5 ∨ op = 7 ∨ op = 15) ∧ arg ≠ 0
    let item3 := op = 4 ∧ (arg / 16 ≠ 0 ∨ (10 ≤ arg % 16 ∧ arg % 16 ≤ 15))
    let item4 := op = 6 ∧ arg / 256 ≠ 0
    (decode w = .error .reservedOp ↔ item1) ∧
    (decode w = .error .operandNotZero ↔ item2) ∧
    (decode w = .error .digitOutOfRange ↔ item3) ∧
    (decode w = .error .patternTooWide ↔ item4) ∧
    (∀ (s : State) (rest : List Input) (why : Reject),
      s.inputs = .word w :: rest → decode w = .error why → step s = .refused (.invalidWord why))

/-- No event word matches two rows of the opcode map. -/
def Obligations.OpcodeRowsNeverOverlap : Prop :=
  ∀ (w : EventWord) (r q : OpcodeRow), r ∈ opcodeTable → q ∈ opcodeTable →
    rowHits r w = true → rowHits q w = true → r = q

/-! ### Steps and the signal interface -/

/-- When the next event is a word that decodes to `i`, the step is `i` performed on the state with
that event taken. The queue of events is the model's (log 1). -/
def Obligations.StepPerformsTheDecodedWord : Prop :=
  ∀ (s : State) (w : EventWord) (rest : List Input) (i : Instr),
    s.inputs = .word w :: rest → decode w = .ok i →
    step s = exec i { s with inputs := rest }

/-- With no event left the block is stuck, the model's fault `noEvent` (log 3). -/
def Obligations.StepWithoutEventIsStuck : Prop :=
  ∀ s : State, s.inputs = [] → step s = .fault .noEvent

/-- The event inputs asserted at one moment are performed as the sequence tick, resume, sleep_req,
and rst alone where it is asserted (60_exceptions.md section 3). That a moment is one event, worked
off one operation a step, and that a moment without event inputs is one step that changes no
register, is the model's choice (log 13, log 1); so is the field of the caller's position (log 25). -/
def Obligations.SimultaneousEventsRunInFixedOrder : Prop :=
  ∀ (p : Pins) (rest : List Input) (s : State), s.inputs = .pins p :: rest →
    let ops : List Instr :=
      if p.rst then [.reset]
      else (if p.tick then [.tick] else []) ++ (if p.resume then [.resume] else []) ++
        (if p.sleepReq then [.sleep p.sleepMs] else [])
    ∃ t u : State, Host.Core.run Sys2Proof.core (max 1 ops.length) s = .next t ∧
      execAll ops s = .next u ∧ t.inputs = rest ∧
      SameTimer u t ∧ SameBlink u t ∧ t.err = u.err ∧ t.frame = u.frame ∧ SameLines u t ∧
      t.callerAt = u.callerAt ∧ t.nClr = u.nClr ∧ t.nToggle = u.nToggle

/-- R33: `seg` on the signals is SEG_DP_ONLY, the table entry, or for a digit above 9 with
`dp_only` = 0 a value that nothing constrains (the free value of log 10, whatever it is), drawn anew
at each read. -/
def Obligations.SegSignalIsCombinational : Prop :=
  ∀ (p : Pins) (rest : List Input) (s : State), s.inputs = .pins p :: rest →
    ∃ t : State, step s = .next t ∧
      (p.dpOnly = true → t.out.seg = some s.params.segDpOnly ∧ t.draws = s.draws) ∧
      (p.dpOnly = false → ∀ d : Fin 10, p.digit.toNat = d.val →
        t.out.seg = some (romEntry s.rom d) ∧ t.draws = s.draws) ∧
      (p.dpOnly = false → 10 ≤ p.digit.toNat →
        t.out.seg = some (Config.segUnspecified s.draws) ∧ t.draws = s.draws + 1)

/-- R137: the caller asserts the digit select at boot, and no operation changes it afterwards. The
boot event is the model's form of it (log 8), and so is the caller's position (log 25). -/
def Obligations.DigitSelectIsAssertedAtBootOnly : Prop :=
  (∀ (s : State) (rest : List Input), s.inputs = .boot :: rest →
    ∃ t : State, step s = .next t ∧ t.digitSel = true ∧ t.callerAt = .mainLoop ∧ t.inputs = rest ∧
      SameTimer s t ∧ SameBlink s t ∧ t.err = s.err ∧ t.frame = s.frame ∧ SameLines s t ∧
      NoPulse s t) ∧
  (∀ (i : Instr) (s t : State), exec i s = .next t → t.digitSel = s.digitSel)

/-! ### SLEEP, TICK, RESUME -/

/-- R66: SLEEP n, accepted and rejected, with everything it leaves unchanged; its word and its
signals. -/
def Obligations.SleepFollowsItsRule : Prop :=
  ∀ (n : Ticks) (s : State),
    decode (0x10000#20 ||| n.zeroExtend 20) = .ok (.sleep n) ∧
    Machine.firstOp ⟨false, false, false, true, n, false, 0⟩ = some (.sleep n) ∧
    (n ≠ 0#16 → s.fsm = .idle →
      ∃ t, exec (.sleep n) s = .next t ∧
        t.sleepCnt = n ∧ t.fsm = .countingDown ∧ ClrPulse s t ∧
        t.lpm = true ∧ t.busy = true ∧ t.tmrMs = true ∧ t.wake = false ∧
        SameBlink s t ∧ t.err = s.err ∧ t.frame = s.frame ∧ SameLines s t ∧ SameFixed s t) ∧
    (n = 0#16 ∨ s.fsm ≠ .idle →
      ∃ t, exec (.sleep n) s = .next t ∧
        t.err = s.err ||| ((if n = 0#16 then 0b001#3 else 0#3) ||| (if s.fsm ≠ .idle then 0b010#3 else 0#3)) ∧
        SameTimer s t ∧ NoPulse s t ∧
        SameBlink s t ∧ t.frame = s.frame ∧ SameLines s t ∧ SameFixed s t)

/-- R101, R102, R103, R105, R110: what each operation records, that a rejected operation changes
nothing but the sticky bits of its causes, and that no operation but RESET clears one. -/
def Obligations.RejectionChangesOnlyTheStickyBits : Prop :=
  ∀ (i : Instr) (s t : State), i ≠ .reset → exec i s = .next t →
    let code : ErrBits :=
      match i with
      | .sleep n => (if n = 0#16 then 1#3 else 0#3) ||| (if s.fsm = .idle then 0#3 else 2#3)
      | .tick => 0#3
      | .resume => if s.fsm = .requestWake then 0#3 else 4#3
      | .encode _ => 0#3
      | .encodeDp => 0#3
      | .display _ => 0#3
      | .frame => 0#3
      | .reset => 0#3
    t.err = s.err ||| code ∧
    (code ≠ 0#3 → t = { s with out := Outputs.quiet, err := s.err ||| code })

/-- R104: a SLEEP issued while a sleep is in flight leaves that sleep to finish as if the second
request had not been made: after any number of ticks the two runs differ in `err` alone. -/
def Obligations.BusySleepDoesNotDisturbTheSleepInFlight : Prop :=
  ∀ (n : Ticks) (k : Nat) (s : State), s.fsm ≠ .idle →
    ∃ u v, execAll (ticks k) s = .next u ∧ execAll (.sleep n :: ticks k) s = .next v ∧
      SameTimer u v ∧ SameBlink u v ∧ v.nClr = u.nClr ∧ v.nToggle = u.nToggle ∧
      v.frame = u.frame ∧ SameLines u v ∧ SameFixed u v ∧
      v.err = s.err ||| (if n = 0#16 then 0b011#3 else 0b010#3) ∧ u.err = s.err

/-- R68: the blink sub-step of every TICK, in every state of `fsm`. -/
def Obligations.TickAdvancesTheBlinkCounter : Prop :=
  ∀ s : State, ∃ t, exec .tick s = .next t ∧
    (s.blinkCnt.toNat = 31 →
      t.blinkCnt = 0#5 ∧ t.led.getLsbD 0 = !s.led.getLsbD 0 ∧ t.led.getLsbD 1 = !s.led.getLsbD 1 ∧
      t.out.toggle = true ∧ t.nToggle = s.nToggle + 1) ∧
    (s.blinkCnt.toNat ≠ 31 →
      t.blinkCnt.toNat = s.blinkCnt.toNat + 1 ∧ t.led = s.led ∧
      t.out.toggle = false ∧ t.nToggle = s.nToggle)

/-- R67 and R69: TICK, by its word and its signal, is never rejected in any state and is the blink
sub-step and the countdown sub-step; the countdown acts only in COUNTING_DOWN and reaching zero is
the wake-up request; everything outside the two sub-steps is left alone. -/
def Obligations.TickCountsDownOnlyWhileCounting : Prop :=
  decode 0x20000#20 = .ok .tick ∧
  Machine.firstOp ⟨false, true, false, false, 0, false, 0⟩ = some .tick ∧
  ∀ s : State, ∃ t, exec .tick s = .next t ∧
    t.blinkCnt = s.blinkCnt + 1#5 ∧
    t.led = (if s.blinkCnt = 31#5 then s.led ^^^ 0b11#2 else s.led) ∧
    t.out.toggle = decide (s.blinkCnt = 31#5) ∧
    t.nToggle = s.nToggle + (if s.blinkCnt = 31#5 then 1 else 0) ∧
    (s.fsm = .countingDown →
      t.sleepCnt = s.sleepCnt - 1#16 ∧
      (s.sleepCnt.toNat = 1 → t.fsm = .requestWake ∧ t.wake = true ∧ t.lpm = false) ∧
      (s.sleepCnt.toNat ≠ 1 → t.fsm = .countingDown ∧ t.lpm = true)) ∧
    (s.fsm ≠ .countingDown → SameTimer s t) ∧
    t.err = s.err ∧ t.frame = s.frame ∧ SameLines s t ∧ SameFixed s t ∧
    t.out.tmrClr = false ∧ t.nClr = s.nClr

/-- From `blink_cnt` = b, after k TICKs in any state: `blink_cnt` = (b + k) mod 32 and
floor((b + k)/32) toggles. -/
def Obligations.TicksCountModulo32 : Prop :=
  ∀ (k : Nat) (s : State), ∃ t, execAll (ticks k) s = .next t ∧
    t.blinkCnt.toNat = (s.blinkCnt.toNat + k) % 32 ∧
    t.nToggle = s.nToggle + (s.blinkCnt.toNat + k) / 32 ∧
    t.led = ledAfter ((s.blinkCnt.toNat + k) / 32) s.led ∧
    t.err = s.err ∧ t.nClr = s.nClr

/-- After an accepted SLEEP n, the n-th following TICK, and no earlier one, requests the wake-up;
`lpm` is 1 until then, and after it no run without another SLEEP or FRAME brings `lpm` back to 1. -/
def Obligations.SleepLastsExactlyItsTicks : Prop :=
  ∀ (n : Ticks) (s : State), s.fsm = .idle → n ≠ 0#16 →
    ∀ k : Nat, ∃ t, execAll (.sleep n :: ticks k) s = .next t ∧
      (k < n.toNat → t.fsm = .countingDown ∧ t.sleepCnt.toNat = n.toNat - k ∧ t.lpm = true) ∧
      (n.toNat ≤ k → t.fsm = .requestWake ∧ t.sleepCnt = 0#16 ∧ t.lpm = false ∧ t.wake = true ∧
        ∀ (is : List Instr) (u : State), (∀ m, Instr.sleep m ∉ is) → Instr.frame ∉ is →
          execAll is t = .next u → u.lpm = false)

/-- The blocking call as a whole, with `i` ticks between the wake-up and the RESUME. -/
def Obligations.BlockingSleepClosedForm : Prop :=
  ∀ (n : Ticks) (i : Nat) (s : State), s.fsm = .idle → n ≠ 0#16 →
    ∃ t, execAll ([.sleep n] ++ ticks n.toNat ++ ticks i ++ [.resume]) s = .next t ∧
      t.fsm = .idle ∧ t.sleepCnt = 0#16 ∧
      t.blinkCnt.toNat = (s.blinkCnt.toNat + n.toNat + i) % 32 ∧
      t.led = ledAfter ((s.blinkCnt.toNat + n.toNat + i) / 32) s.led ∧
      t.nToggle = s.nToggle + (s.blinkCnt.toNat + n.toNat + i) / 32 ∧
      t.nClr = s.nClr + 2 ∧ t.err = s.err

/-- R70: RESUME, accepted and rejected, with everything it leaves unchanged; its word and its
signal. -/
def Obligations.ResumeFollowsItsRule : Prop :=
  decode 0x30000#20 = .ok .resume ∧
  Machine.firstOp ⟨false, false, true, false, 0, false, 0⟩ = some .resume ∧
  ∀ s : State,
    (s.fsm = .requestWake →
      ∃ t, exec .resume s = .next t ∧ t.fsm = .idle ∧ t.sleepCnt = s.sleepCnt ∧ ClrPulse s t ∧
        t.wake = false ∧ t.busy = false ∧ t.tmrMs = false ∧
        SameBlink s t ∧ t.err = s.err ∧ t.frame = s.frame ∧ SameLines s t ∧ SameFixed s t) ∧
    (s.fsm ≠ .requestWake →
      ∃ t, exec .resume s = .next t ∧ t.err = s.err ||| 0b100#3 ∧ SameTimer s t ∧ NoPulse s t ∧
        SameBlink s t ∧ t.frame = s.frame ∧ SameLines s t ∧ SameFixed s t)

/-- R72: the transition table of `fsm`, row by row, and that ENCODE, ENCODE_DP and DISPLAY never
change it. -/
def Obligations.FsmTransitionTable : Prop :=
  ∀ (i : Instr) (s t : State), exec i s = .next t →
    match i, s.fsm with
    | .sleep n, .idle =>
      if n = 0#16 then SameTimer s t ∧ t.err = s.err ||| 0b001#3 ∧ t.out.tmrClr = false
      else t.fsm = .countingDown ∧ t.sleepCnt = n ∧ t.out.tmrClr = true ∧ t.err = s.err
    | .sleep n, _ =>
      SameTimer s t ∧ t.out.tmrClr = false ∧
      t.err = s.err ||| (if n = 0#16 then 0b011#3 else 0b010#3)
    | .tick, .countingDown =>
      t.blinkCnt = s.blinkCnt + 1#5 ∧ t.led = (if s.blinkCnt = 31#5 then s.led ^^^ 0b11#2 else s.led) ∧
      t.out.toggle = decide (s.blinkCnt = 31#5) ∧ t.sleepCnt = s.sleepCnt - 1#16 ∧ t.err = s.err ∧
      t.fsm = if s.sleepCnt = 1#16 then .requestWake else .countingDown
    | .tick, _ =>
      t.blinkCnt = s.blinkCnt + 1#5 ∧ t.led = (if s.blinkCnt = 31#5 then s.led ^^^ 0b11#2 else s.led) ∧
      t.out.toggle = decide (s.blinkCnt = 31#5) ∧ SameTimer s t ∧ t.err = s.err
    | .resume, .requestWake =>
      t.fsm = .idle ∧ t.sleepCnt = s.sleepCnt ∧ t.out.tmrClr = true ∧ t.err = s.err
    | .resume, _ => SameTimer s t ∧ t.err = s.err ||| 0b100#3 ∧ t.out.tmrClr = false
    | .reset, _ => t.fsm = .idle
    | .frame, f => f = .idle ∧ t.fsm = .countingDown ∧ t.sleepCnt = 100#16
    | .encode _, _ => SameTimer s t
    | .encodeDp, _ => SameTimer s t
    | .display _, _ => SameTimer s t

/-- Which operation may write which register: every row of the access matrix (10_state.md section
5), and the rows of the environment's state, with its FRAME, which contains a DISPLAY and a SLEEP.
The last row is on the model's own field `callerAt`, where the caller is in its program (log 25):
only RESET, after which "the caller restarts from boot" (70_reset_and_hazards.md section 1), changes
it. -/
def Obligations.OperationsWriteOnlyTheirRegisters : Prop :=
  ∀ (i : Instr) (s t : State), exec i s = .next t →
    (t.fsm ≠ s.fsm →
      (∃ n, i = .sleep n ∧ n ≠ 0#16 ∧ s.fsm = .idle) ∨
      (i = .tick ∧ s.fsm = .countingDown ∧ s.sleepCnt = 1#16) ∨
      (i = .resume ∧ s.fsm = .requestWake) ∨ i = .frame ∨ i = .reset) ∧
    (t.blinkCnt ≠ s.blinkCnt → i = .tick ∨ i = .reset) ∧
    (t.led ≠ s.led → (i = .tick ∧ s.blinkCnt = 31#5) ∨ i = .reset) ∧
    (t.sleepCnt ≠ s.sleepCnt →
      (∃ n, i = .sleep n ∧ n ≠ 0#16 ∧ s.fsm = .idle) ∨ (i = .tick ∧ s.fsm = .countingDown) ∨
      i = .frame ∨ i = .reset) ∧
    (t.err ≠ s.err → (∃ n, i = .sleep n) ∨ i = .resume ∨ i = .reset) ∧
    (t.frame ≠ s.frame → i = .frame ∨ i = .reset) ∧
    (t.trace ≠ s.trace → (∃ p, i = .display p) ∨ i = .frame) ∧
    (t.srData ≠ s.srData → (∃ p, i = .display p) ∨ i = .frame) ∧
    (t.srClk ≠ s.srClk → (∃ p, i = .display p) ∨ i = .frame) ∧
    (t.srOe ≠ s.srOe → (∃ p, i = .display p) ∨ i = .frame) ∧
    t.digitSel = s.digitSel ∧ (t.callerAt ≠ s.callerAt → i = .reset)

/-- Independence of the two duties, first half: `blink_cnt` and `led` depend only on the TICKs and
RESETs of a run, not on any other operation between them. -/
def Obligations.BlinkDutyIgnoresEverythingButTicks : Prop :=
  ∀ (is js : List Instr) (s s' t t' : State),
    is.filter (fun i => i = .tick ∨ i = .reset) = js.filter (fun i => i = .tick ∨ i = .reset) →
    SameBlink s s' → s'.params = s.params →
    execAll is s = .next t → execAll js s' = .next t' → SameBlink t t'

/-- Independence of the two duties, second half: `fsm` and `sleep_cnt` do not depend on `blink_cnt`
or `led`, whatever run both states perform, nor on anything else in the state. -/
def Obligations.CountdownIgnoresTheBlinkState : Prop :=
  ∀ (is : List Instr) (s s' t t' : State), SameTimer s s' →
    execAll is s = .next t → execAll is s' = .next t' → SameTimer t t'

/-- Between two RESETs `err` only gains bits, over any run. -/
def Obligations.ErrBitsStayUntilReset : Prop :=
  ∀ (is : List Instr) (s t : State), Instr.reset ∉ is → execAll is s = .next t →
    ∀ b : Nat, s.err.getLsbD b = true → t.err.getLsbD b = true

/-- There is no cancellation: in a run without RESET only TICKs move a sleep in flight, whatever else
is issued, and one by one; the sleep is still counting until its last tick. -/
def Obligations.SleepInFlightCannotBeCancelled : Prop :=
  ∀ (is : List Instr) (s t : State), Instr.reset ∉ is → s.fsm = .countingDown →
    is.count .tick < s.sleepCnt.toNat → execAll is s = .next t →
    t.fsm = .countingDown ∧ t.sleepCnt.toNat = s.sleepCnt.toNat - is.count .tick

/-- The low-power state is entered only by an accepted SLEEP (FRAME performs one) and left only by
the TICK that brings `sleep_cnt` to 0, or by RESET. -/
def Obligations.LowPowerIsEnteredAndLeftAsStated : Prop :=
  ∀ (i : Instr) (s t : State), exec i s = .next t →
    (s.power = .lowPower ↔ s.fsm = .countingDown) ∧
    (s.power = .active → t.power = .lowPower →
      (∃ n, i = .sleep n ∧ n ≠ 0#16 ∧ s.fsm = .idle) ∨ i = .frame) ∧
    (s.power = .lowPower → t.power = .active → (i = .tick ∧ s.sleepCnt = 1#16) ∨ i = .reset)

/-- R20: which operations assert the two pulses, and that the ghost counts count them. FRAME's
`tmr_clr` is that of the SLEEP it performs. -/
def Obligations.PulsesAreAssertedExactlyByTheirOperations : Prop :=
  ∀ (i : Instr) (s t : State), exec i s = .next t →
    (t.out.tmrClr = true ↔
      (∃ n, i = .sleep n ∧ n ≠ 0#16 ∧ s.fsm = .idle) ∨ i = .frame ∨
      (i = .resume ∧ s.fsm = .requestWake) ∨ i = .reset) ∧
    (t.out.toggle = true ↔ i = .tick ∧ s.blinkCnt = 31#5) ∧
    t.nClr = s.nClr + (if t.out.tmrClr then 1 else 0) ∧
    t.nToggle = s.nToggle + (if t.out.toggle then 1 else 0)

/-- In every run without RESET the accepted SLEEPs (FRAME's included) and the accepted RESUMEs
alternate: the starts of sleeps are the ends of sleeps, up to the sleep in flight before and the one
in flight after; and each start and each end is one `tmr_clr` pulse. -/
def Obligations.SleepsAndResumesAlternate : Prop :=
  ∀ (is : List Instr) (s t : State), Instr.reset ∉ is → execAll is s = .next t →
    countAlong startsSleep is s + s.busy.toNat = countAlong endsSleep is s + t.busy.toNat ∧
    t.nClr = s.nClr + countAlong startsSleep is s + countAlong endsSleep is s

/-- Progress: under the fairness that takes the place of time, in a run without end and without
RESET every accepted SLEEP n (FRAME's, of 100, included) is followed, after exactly n TICKs in
COUNTING_DOWN, by REQUEST_WAKE, and by the RESUME that returns the block to IDLE. -/
def Obligations.FairRunsCompleteEverySleep : Prop :=
  ∀ (ops : Nat → Instr) (st : Nat → State), FairRun ops st → (∀ j, ops j ≠ .reset) →
    ∀ (k : Nat) (n : Ticks),
      ((ops k = .sleep n ∧ n ≠ 0#16 ∧ (st k).fsm = .idle) ∨ (ops k = .frame ∧ n = 100#16)) →
      ∃ w j, k < w ∧ w < j ∧ ops w = .tick ∧ ops j = .resume ∧
        (List.range' (k + 1) (w - k)).countP (fun m => ops m = .tick) = n.toNat ∧
        (∀ m, k < m → m ≤ w → (st m).fsm = .countingDown) ∧
        (∀ m, w < m → m ≤ j → (st m).fsm = .requestWake) ∧
        (st (j + 1)).fsm = .idle

/-- Where control returns after the handler, by `fsm` before and after the TICK. -/
def Obligations.TickReturnsControlByState : Prop :=
  ∀ s : State, ∃ t, exec .tick s = .next t ∧
    (tickReturn s.fsm t.fsm = .lowPower ↔ s.fsm = .countingDown ∧ s.sleepCnt ≠ 1#16) ∧
    (tickReturn s.fsm t.fsm = .insideSleep ↔ s.fsm = .countingDown ∧ s.sleepCnt = 1#16) ∧
    (tickReturn s.fsm t.fsm = .preemptedCaller ↔ s.fsm ≠ .countingDown)

/-- R16 and R118: the four status outputs and the timer's mode, by state. -/
def Obligations.StatusOutputsFollowTheState : Prop :=
  ∀ s : State,
    (s.lpm = true ↔ s.fsm = .countingDown) ∧ (s.wake = true ↔ s.fsm = .requestWake) ∧
    (s.busy = true ↔ s.fsm ≠ .idle) ∧ (s.tmrMs = true ↔ s.fsm ≠ .idle) ∧
    (s.tickPeriod = .oneMs ↔ s.fsm = .countingDown ∨ s.fsm = .requestWake)

/-! ### ENCODE, ENCODE_DP -/

/-- R81: ENCODE d shows the entry of `d` on `seg`, as a word and on the signals, and writes no state,
flag or pulse; the word of a digit above 9 decodes to nothing. -/
def Obligations.EncodeShowsTheTableEntry : Prop :=
  (∀ (d : Fin 10) (s : State),
    decode (0x40000#20 ||| BitVec.ofNat 20 d.val) = .ok (.encode (BitVec.ofNat 4 d.val)) ∧
    exec (.encode (BitVec.ofNat 4 d.val)) s =
      .next { s with out := { seg := some (romEntry s.rom d), tmrClr := false, toggle := false } } ∧
    Machine.segOutput ⟨false, false, false, false, 0, false, BitVec.ofNat 4 d.val⟩ s =
      romEntry s.rom d) ∧
  (∀ d : Digit, 10 ≤ d.toNat →
    decode (0x40000#20 ||| d.zeroExtend 20) = .error .digitOutOfRange)

/-- A term ENCODE d with `d` above 9, which no event word spells, is refused by exec. That there is
such a term and under which name it is refused is the model's choice (log 17). -/
def Obligations.EncodeTermAboveNineIsRefused : Prop :=
  ∀ (d : Digit) (s : State), 10 ≤ d.toNat →
    (∀ w : EventWord, decode w ≠ .ok (.encode d)) ∧
    exec (.encode d) s = .refused .digitOutOfRange

/-- R83: ENCODE_DP shows SEG_DP_ONLY on `seg` and writes no state; its word and its signal. -/
def Obligations.EncodeDpShowsTheDecimalPoint : Prop :=
  decode 0x50000#20 = .ok .encodeDp ∧
  ∀ s : State, exec .encodeDp s =
      .next { s with out := { seg := some s.params.segDpOnly, tmrClr := false, toggle := false } } ∧
    ∀ d : Digit,
      Machine.segOutput ⟨false, false, false, false, 0, true, d⟩ s = s.params.segDpOnly

/-- With the DEFAULT table ENCODE shows R82's patterns, and ENCODE_DP 0x80. The default is the
model's instantiation of an open parameter (log 5, log 9); rows 2 to 9 rest on general knowledge. -/
def Obligations.DefaultPatternsAreShown : Prop :=
  (∀ d : Fin 10, ∃ t, exec (.encode (BitVec.ofNat 4 d.val)) State.reset = .next t ∧
    t.out.seg = [0x3F#8, 0x06#8, 0x5B#8, 0x4F#8, 0x66#8, 0x6D#8, 0x7D#8, 0x07#8, 0x7F#8,
      0x6F#8][d.val]?) ∧
  ∃ t, exec .encodeDp State.reset = .next t ∧ t.out.seg = some 0x80#8

/-- SEG_TABLE is a parameter: the ROM can hold any ten patterns, in canonical form, and ENCODE shows
them. -/
def Obligations.AnySegmentTableCanBeHeld : Prop :=
  ∀ (table : Vector Pattern 10) (s : State), s.rom = romOfTable table →
    Memory.wf s.rom = true ∧
    ∀ d : Fin 10, ∃ t, exec (.encode (BitVec.ofNat 4 d.val)) s = .next t ∧
      t.out.seg = some table[d]

/-- The table and layout of State.reset have everything R84 fixes and adds. They are the model's
instantiation (log 5, log 9). -/
def Obligations.DefaultTableIsAsDocumented : Prop :=
  tableAsDocumented State.reset.params.segBitmap State.reset.rom State.reset.params.segDpOnly = true ∧
  tableAsChosen State.reset.params.segBitmap State.reset.rom State.reset.params.segDpOnly = true ∧
  romEntry State.reset.rom 0 = 0x3F#8 ∧ romEntry State.reset.rom 1 = 0x06#8

/-- Exactly the table's entries and SEG_DP_ONLY are ever shown on `seg` by an operation, and FRAME
displays one of them. -/
def Obligations.OnlyElevenPatternsAreShown : Prop :=
  ∀ (i : Instr) (s t : State), exec i s = .next t →
    (∀ p, t.out.seg = some p → (∃ d, p = romEntry s.rom d) ∨ p = s.params.segDpOnly) ∧
    (i = .frame → ∃ p, t.trace = s.trace ++ displayTrace p ∧
      ((∃ d, p = romEntry s.rom d) ∨ p = s.params.segDpOnly))

/-- No step writes the segment ROM or a parameter: the same digit always has the same pattern, over
any number of steps. -/
def Obligations.NoRunWritesTheRomOrAParameter : Prop :=
  ∀ (k : Nat) (s t : State), Host.Core.run Sys2Proof.core k s = .next t →
    t.params = s.params ∧ ∀ a, romRead t.rom a = romRead s.rom a

/-! ### DISPLAY, FRAME -/

/-- R89: the 29 writes of DISPLAY, the levels it leaves, and what it does not touch. -/
def Obligations.DisplayFollowsTheAlgorithm : Prop :=
  ∀ (p : Pattern) (s : State),
    decode (0x60000#20 ||| p.zeroExtend 20) = .ok (.display p) ∧
    ∃ t, exec (.display p) s = .next t ∧
      t.trace = s.trace ++
        ([⟨.oe, false⟩,
          ⟨.clk, false⟩, ⟨.data, p.getLsbD 7⟩, ⟨.clk, true⟩,
          ⟨.clk, false⟩, ⟨.data, p.getLsbD 6⟩, ⟨.clk, true⟩,
          ⟨.clk, false⟩, ⟨.data, p.getLsbD 5⟩, ⟨.clk, true⟩,
          ⟨.clk, false⟩, ⟨.data, p.getLsbD 4⟩, ⟨.clk, true⟩,
          ⟨.clk, false⟩, ⟨.data, p.getLsbD 3⟩, ⟨.clk, true⟩,
          ⟨.clk, false⟩, ⟨.data, p.getLsbD 2⟩, ⟨.clk, true⟩,
          ⟨.clk, false⟩, ⟨.data, p.getLsbD 1⟩, ⟨.clk, true⟩,
          ⟨.clk, false⟩, ⟨.data, p.getLsbD 0⟩, ⟨.clk, true⟩,
          ⟨.clk, false⟩, ⟨.data, false⟩, ⟨.clk, true⟩,
          ⟨.oe, true⟩] : List LineWrite) ∧
      t.srOe = true ∧ t.srClk = true ∧ t.srData = false ∧
      sampledBits s.srClk s.srData (displayTrace p) =
        [p.getLsbD 7, p.getLsbD 6, p.getLsbD 5, p.getLsbD 4, p.getLsbD 3, p.getLsbD 2, p.getLsbD 1,
          p.getLsbD 0, false] ∧
      SameTimer s t ∧ SameBlink s t ∧ t.err = s.err ∧ t.frame = s.frame ∧ NoPulse s t ∧
      SameFixed s t

/-- The document's testable properties of DISPLAY: nine clock pulses, blanked before the first clock
write and visible after the last, idempotent; and the patterns shown can be told from the trace. -/
def Obligations.DisplayTraceIsBlankedAndFaithful : Prop :=
  (∀ p : Pattern,
    (displayTrace p).count ⟨.clk, false⟩ = 9 ∧ (displayTrace p).count ⟨.clk, true⟩ = 9 ∧
    (displayTrace p).length = 29 ∧
    (displayTrace p).head? = some ⟨.oe, false⟩ ∧ (displayTrace p).getLast? = some ⟨.oe, true⟩ ∧
    (∀ w ∈ (displayTrace p).tail.dropLast, w.line ≠ .oe)) ∧
  (∀ (p : Pattern) (s : State), ∃ t, execAll [.display p, .display p] s = .next t ∧
    t.trace = s.trace ++ displayTrace p ++ displayTrace p) ∧
  (∀ p q : Pattern, displayTrace p = displayTrace q → p = q)

/-- R91: FRAME in IDLE encodes and displays the current frame, starts a sleep of 100 and advances the
frame; in any other state it is refused. -/
def Obligations.FrameFollowsItsRule : Prop :=
  decode 0x70000#20 = .ok .frame ∧
  (∀ s : State, s.fsm = .idle →
    ∃ (p : Pattern) (t : State), exec .frame s = .next t ∧
      (∀ d, s.frame = .digit d → p = romEntry s.rom d) ∧
      (s.frame = .dp → p = s.params.segDpOnly) ∧
      t.trace = s.trace ++ displayTrace p ∧
      t.srOe = true ∧ t.srClk = true ∧ t.srData = false ∧
      t.fsm = .countingDown ∧ t.sleepCnt = 100#16 ∧ ClrPulse s t ∧
      (∀ d : Fin 10, s.frame = .digit d → 1 ≤ d.val →
        ∃ e : Fin 10, t.frame = .digit e ∧ e.val = d.val - 1) ∧
      (s.frame = .digit 0 → t.frame = .dp) ∧ (s.frame = .dp → t.frame = .digit 9) ∧
      SameBlink s t ∧ t.err = s.err ∧ SameFixed s t) ∧
  (∀ s : State, s.fsm ≠ .idle → ∃ why, exec .frame s = .refused why)

/-- What the model adds to FRAME's rule: in IDLE `seg` shows the pattern that is displayed (log 21,
DEDUCED), and the refusal in any other state has the name `frameNotIdle` (log 17). -/
def Obligations.FrameShowsItsPatternOrStopsByName : Prop :=
  (∀ s : State, s.fsm = .idle →
    ∃ t : State, exec .frame s = .next t ∧
      (∀ d, s.frame = .digit d → t.out.seg = some (romEntry s.rom d)) ∧
      (s.frame = .dp → t.out.seg = some s.params.segDpOnly)) ∧
  (∀ s : State, s.fsm ≠ .idle → exec .frame s = .refused .frameNotIdle)

/-- One whole iteration of MainLoop from IDLE, `MAINLOOP_FRAME`, in any state of the rest: the frame
is held for exactly 100 TICKs, for after fewer the block is still counting. -/
def Obligations.MainLoopFrameHoldsOneFrameFor100Ticks : Prop :=
  ∀ s : State, s.fsm = .idle →
    ∃ t, execAll mainloopFrame s = .next t ∧
      t.fsm = .idle ∧ t.sleepCnt = 0#16 ∧ t.err = s.err ∧
      t.frame = s.frame.next ∧ t.trace = s.trace ++ displayTrace s.framePattern ∧
      t.blinkCnt.toNat = (s.blinkCnt.toNat + 100) % 32 ∧
      t.nToggle = s.nToggle + (s.blinkCnt.toNat + 100) / 32 ∧ t.nClr = s.nClr + 2 ∧
      ∀ k, k < 100 → ∃ u, execAll (.frame :: ticks k) s = .next u ∧
        u.fsm = .countingDown ∧ u.sleepCnt.toNat = 100 - k ∧ u.lpm = true ∧
        u.trace = s.trace ++ displayTrace s.framePattern

/-- One MainLoop cycle from frame 9, eleven iterations of 100 TICKs each: the frames 9, 8, ..., 0, DP
are displayed in this order, none skipped or repeated, and the frame is 9 again. -/
def Obligations.MainLoopCycleShowsEachFrameOnce : Prop :=
  ∀ s : State, s.fsm = .idle → s.frame = .digit 9 →
    ∃ t, execAll mainloopCycle s = .next t ∧
      t.fsm = .idle ∧ t.frame = .digit 9 ∧ t.err = s.err ∧
      t.trace = s.trace ++
        (([9, 8, 7, 6, 5, 4, 3, 2, 1, 0] : List (Fin 10)).flatMap fun d =>
          displayTrace (romEntry s.rom d)) ++ displayTrace s.params.segDpOnly ∧
      t.blinkCnt.toNat = (s.blinkCnt.toNat + 1100) % 32 ∧
      t.led = ledAfter ((s.blinkCnt.toNat + 1100) / 32) s.led ∧
      t.nToggle = s.nToggle + (s.blinkCnt.toNat + 1100) / 32 ∧ t.nClr = s.nClr + 22

/-! ### RESET -/

/-- R131: RESET from any state, that it leaves the lines and the digit select alone, that it puts the
caller back at boot, that it comes
before every other event of its moment, and that no other operation clears an `err` bit, clears
`blink_cnt` but by the wrap, or leaves COUNTING_DOWN without counting to zero. -/
def Obligations.ResetPutsTheBlockInItsFirstState : Prop :=
  decode 0xF0000#20 = .ok .reset ∧
  (∀ p : Pins, p.rst = true → Machine.firstOp p = some .reset ∧ Machine.leftover p = []) ∧
  (∀ s : State, ∃ t, exec .reset s = .next t ∧
    t.fsm = .idle ∧ t.blinkCnt = 0#5 ∧ t.sleepCnt = 0#16 ∧ t.led = s.params.ledReset ∧ t.err = 0#3 ∧
    t.frame = .digit 9 ∧ t.callerAt = .boot ∧ ClrPulse s t ∧ SameLines s t ∧ SameSetup s t) ∧
  ∀ (i : Instr) (s t : State), i ≠ .reset → exec i s = .next t →
    (∀ b : Nat, s.err.getLsbD b = true → t.err.getLsbD b = true) ∧
    (s.blinkCnt ≠ 0#5 → t.blinkCnt = 0#5 → i = .tick ∧ s.blinkCnt = 31#5) ∧
    (s.fsm = .countingDown → t.fsm ≠ .countingDown → i = .tick ∧ s.sleepCnt = 1#16)

/-- The reset values: what State.reset holds, and the status outputs there. That `led` is LED_RESET
is R22; that State.reset instantiates LED_RESET with 0b00 is the model's choice (log 6), and the field
`callerAt` is the model's (log 25). -/
def Obligations.ResetStateHoldsTheResetValues : Prop :=
  State.reset.fsm = .idle ∧ State.reset.blinkCnt = 0#5 ∧ State.reset.sleepCnt = 0#16 ∧
  State.reset.led = State.reset.params.ledReset ∧ State.reset.params.ledReset = 0b00#2 ∧
  State.reset.err = 0b000#3 ∧ State.reset.frame = .digit 9 ∧ State.reset.callerAt = .boot ∧
  State.reset.lpm = false ∧ State.reset.wake = false ∧ State.reset.busy = false ∧
  State.reset.tmrMs = false ∧
  ∀ (s t : State), exec .reset s = .next t → s.params = State.reset.params →
    SameTimer State.reset t ∧ SameBlink State.reset t ∧ t.err = State.reset.err ∧
    t.frame = State.reset.frame ∧ t.callerAt = State.reset.callerAt

/-- The caller's program starts at boot: after RESET from any state and at State.reset the caller's
next event is the boot action, whose step asserts the digit select and enters MainLoop with FRAME
next. That the caller's position is a field of State and boot an event is the model's form (log 25,
log 8). -/
def Obligations.CallerStartsAtBoot : Prop :=
  callerNext State.reset = some .boot ∧
  (∀ s t : State, exec .reset s = .next t → callerNext t = some .boot) ∧
  ∀ s : State, s.callerAt = .boot → s.fsm = .idle →
    ∃ t, systemStep .caller s = .next t ∧ t.digitSel = true ∧ t.callerAt = .mainLoop ∧
      callerNext t = some (.word 0x70000#20) ∧
      SameTimer s t ∧ SameBlink s t ∧ t.err = s.err ∧ t.frame = s.frame ∧ SameLines s t ∧ NoPulse s t

/-- After RESET from any state, however many ticks fall before and after the boot action, the caller's
second move displays frame 9, with the digit select asserted, and leaves frame 8 (the caller's
position is log 25). -/
def Obligations.FirstFrameAfterResetIsNine : Prop :=
  ∀ (a b : Nat) (s : State),
    ∃ t, systemRun ([.reset] ++ List.replicate a .timer ++ [.caller] ++ List.replicate b .timer ++
        [.caller]) s = .next t ∧
      t.trace = s.trace ++ displayTrace (romEntry s.rom 9) ∧ t.digitSel = true ∧
      t.frame = .digit 8 ∧ t.fsm = .countingDown ∧ t.sleepCnt = 100#16 ∧ t.err = 0#3 ∧
      t.blinkCnt.toNat = (a + b) % 32

/-- The whole system, under any schedule of its three agents: it never stops and never records an
error, MainLoop runs only once the digit select is asserted, and nothing is displayed before that.
The schedule and the caller's position are the model's (log 22, log 25). -/
def Obligations.SystemRunsWithoutErrorAndBootsFirst : Prop :=
  ∀ (turns : List Turn) (s : State), s.err = 0#3 → (s.callerAt = .mainLoop → s.digitSel = true) →
    ∃ t, systemRun turns s = .next t ∧ t.err = 0#3 ∧
      (t.callerAt = .mainLoop → t.digitSel = true) ∧ (t.trace ≠ s.trace → t.digitSel = true)

/-! ### Invariants -/

/-- Every step keeps the invariants of R17, the canonical form of the ROM and the meaning of the
pulses, from every state that has them; and that the caller is in MainLoop only with the digit select
asserted, on the model's field `callerAt` (log 25). -/
def Obligations.EveryStepKeepsTheInvariants : Prop :=
  ∀ s t : State, Inv s → step s = .next t → Inv t

/-- The invariants hold at reset, and so in every state a run from there reaches, whatever events are
loaded. -/
def Obligations.InvariantsHoldAtReset : Prop :=
  ∀ events : List Input, Inv { State.reset with inputs := events }

/-- The difference of the two LEDs never changes, in any run from a state where it is that of
LED_RESET: "toggled as a pair". -/
def Obligations.LedsStayAPair : Prop :=
  ∀ (is : List Instr) (s t : State),
    (s.led.getLsbD 1 ^^ s.led.getLsbD 0) =
      (s.params.ledReset.getLsbD 1 ^^ s.params.ledReset.getLsbD 0) →
    execAll is s = .next t →
    (t.led.getLsbD 1 ^^ t.led.getLsbD 0) =
      (s.params.ledReset.getLsbD 1 ^^ s.params.ledReset.getLsbD 0)

/-! ### The caller and the text syntax -/

/-- A caller that keeps the duties of R93, under any schedule of ticks and resets, is neither refused
nor rejected: each run of operations it may issue completes and `err` stays 0; and MainLoop keeps
them. -/
def Obligations.DutifulCallersAreNeverRejected : Prop :=
  (∀ (is : List Instr) (s : State), s.err = 0#3 → dutiful is s = true →
    ∃ t, execAll is s = .next t ∧ t.err = 0#3) ∧
  (∀ (s : State) (i : Instr), mainLoopNext s = some i → callerMay i s = true)

/-- An operation of its range, performed when R93 allows it, completes: no duty-keeping move of the
caller, and no TICK or RESET in any state, is refused. -/
def Obligations.AllowedOperationsComplete : Prop :=
  ∀ (i : Instr) (s : State),
    (callerMay i s = true → ∃ t, exec i s = .next t) ∧
    (i.WellFormed → i ≠ .frame → ∃ t, exec i s = .next t)

/-- The text of an operation reads back as the operation. What R54 leaves open is the model's (log
20). -/
def Obligations.TextOfAnOperationReadsBack : Prop :=
  ∀ i : Instr, i.WellFormed → parseLine (render i) = some (some i)
end

