-- ==== Sys2Proof/Laws/Decode.lean ====
section
/-! SUPPORT. The decoder and the encoder read in numbers: each row's test, each operand field, the
decoder as one chain of comparisons, the value of an event word. -/

namespace Sys2Proof

/-- A row that fixes every bit is hit by its own word alone. -/
theorem rowHits_full (m : String) (k w : EventWord) :
    rowHits ⟨m, k, 0xFFFFF#20⟩ w = true ↔ w.toNat = k.toNat := by
  have hmask : w &&& 0xFFFFF#20 = w := by
    have h : 0xFFFFF#20 = BitVec.allOnes 20 := by decide
    rw [h, BitVec.and_allOnes]
  simp only [rowHits, beq_iff_eq, hmask, BitVec.toNat_inj]

/-- SLEEP's row tests `op` alone. -/
theorem rowHits_sleep (w : EventWord) : rowHits rowSleep w = true ↔ w.toNat / 65536 = 1 := by
  have hmask : w &&& 0xF0000#20 = (w >>> 16) <<< 16 := by
    ext j hj
    simp only [BitVec.getElem_and, BitVec.getElem_shiftLeft, BitVec.getElem_ushiftRight]
    interval_cases j <;> simp [BitVec.getElem_eq_testBit_toNat, BitVec.getLsbD] <;> (intros; decide)
  rw [rowHits, beq_iff_eq, rowSleep, hmask, ← BitVec.toNat_inj]
  simp [BitVec.toNat_ushiftRight, Nat.shiftRight_eq_div_pow, BitVec.toNat_shiftLeft,
    Nat.shiftLeft_eq]
  omega

/-- ENCODE's row tests every bit above the digit. -/
theorem rowHits_encode (w : EventWord) : rowHits rowEncode w = true ↔ w.toNat / 16 = 0x4000 := by
  have hmask : w &&& 0xFFFF0#20 = (w >>> 4) <<< 4 := by
    ext j hj
    simp only [BitVec.getElem_and, BitVec.getElem_shiftLeft, BitVec.getElem_ushiftRight]
    interval_cases j <;> simp [BitVec.getElem_eq_testBit_toNat, BitVec.getLsbD] <;> (intros; decide)
  rw [rowHits, beq_iff_eq, rowEncode, hmask, ← BitVec.toNat_inj]
  simp [BitVec.toNat_ushiftRight, Nat.shiftRight_eq_div_pow, BitVec.toNat_shiftLeft,
    Nat.shiftLeft_eq]
  omega

/-- DISPLAY's row tests every bit above the pattern. -/
theorem rowHits_display (w : EventWord) : rowHits rowDisplay w = true ↔ w.toNat / 256 = 0x600 := by
  have hmask : w &&& 0xFFF00#20 = (w >>> 8) <<< 8 := by
    ext j hj
    simp only [BitVec.getElem_and, BitVec.getElem_shiftLeft, BitVec.getElem_ushiftRight]
    interval_cases j <;> simp [BitVec.getElem_eq_testBit_toNat, BitVec.getLsbD] <;> (intros; decide)
  rw [rowHits, beq_iff_eq, rowDisplay, hmask, ← BitVec.toNat_inj]
  simp [BitVec.toNat_ushiftRight, Nat.shiftRight_eq_div_pow, BitVec.toNat_shiftLeft,
    Nat.shiftLeft_eq]
  omega

theorem opField_toNat (w : EventWord) : (opField w).toNat = w.toNat / 65536 := by
  have := w.isLt
  simp [opField, BitVec.extractLsb'_toNat, Nat.shiftRight_eq_div_pow]; omega

theorem sleepOperand_toNat (w : EventWord) : (sleepOperand w).toNat = w.toNat % 65536 := by
  simp [sleepOperand, argField, BitVec.extractLsb'_toNat]

theorem digitOperand_toNat (w : EventWord) : (digitOperand w).toNat = w.toNat % 16 := by
  simp [digitOperand, argField, BitVec.extractLsb'_toNat]

theorem patternOperand_toNat (w : EventWord) : (patternOperand w).toNat = w.toNat % 256 := by
  simp [patternOperand, argField, BitVec.extractLsb'_toNat]

/-- The decoder as one chain of comparisons of numbers (R50, R56). -/
theorem decode_toNat (w : EventWord) :
    decode w =
      if w.toNat / 65536 = 1 then .ok (.sleep (sleepOperand w))
      else if w.toNat = 0x20000 then .ok .tick
      else if w.toNat = 0x30000 then .ok .resume
      else if w.toNat / 16 = 0x4000 ∧ w.toNat % 16 ≤ 9 then .ok (.encode (digitOperand w))
      else if w.toNat = 0x50000 then .ok .encodeDp
      else if w.toNat / 256 = 0x600 then .ok (.display (patternOperand w))
      else if w.toNat = 0x70000 then .ok .frame
      else if w.toNat = 0xF0000 then .ok .reset
      else .error (rejectOf w) := by
  unfold decode
  simp only [rowHits_sleep, rowHits_encode, rowHits_display, rowTick, rowResume, rowEncodeDp,
    rowFrame, rowReset, rowHits_full, Bool.and_eq_true, decide_eq_true_eq, digitOperand_toNat]
  rfl

/-- The number an event word is (R48). -/
theorem eventWord_toNat (op : BitVec 4) (arg : BitVec 16) :
    (eventWord op arg).toNat = op.toNat * 65536 + arg.toNat := by
  have := arg.isLt
  rw [eventWord, BitVec.toNat_append, ← Nat.shiftLeft_add_eq_or_of_lt (by simpa using this)]
  simp [Nat.shiftLeft_eq]

end Sys2Proof
end

