-- ==== Sys2Proof/Laws/Memory.lean ====
section
/-! SUPPORT. The segment ROM's cells: read after write, and that setting an entry keeps the canonical
form. No operation of the machine writes the ROM; these serve whoever chooses SEG_TABLE (R6). -/

namespace Sys2Proof.Machine

open Sys2Proof.Config

/-- Reset memory lists nothing and has the canonical form. -/
theorem reset_rom_wf : Memory.wf State.reset.rom = true := rfl

/-- A ROM read answers exactly at the ten addresses that exist (R30, R33). -/
theorem romRead_isSome (m : Memory) (a : Nat) : (romRead m a).isSome = decide (a < 10) := by
  by_cases h : a < 10 <;> simp [romRead, nDigits, h]

/-- A ROM read of a digit is its table entry. -/
theorem romRead_entry (m : Memory) (d : Fin 10) : romRead m d.val = some (romEntry m d) := by
  simp [romRead, nDigits, d.isLt]

/-- A canonical list from `hi` on is canonical from any lower address on. -/
theorem cellsCanonical_mono {lo hi : Nat} (h : lo ≤ hi) {m : Memory}
    (hm : cellsCanonical hi m = true) : cellsCanonical lo m = true := by
  cases m with
  | nil => rfl
  | cons c m =>
    obtain ⟨k, v⟩ := c
    simp only [cellsCanonical, Bool.and_eq_true, decide_eq_true_eq] at hm ⊢
    exact ⟨⟨⟨h.trans hm.1.1.1, hm.1.1.2⟩, hm.1.2⟩, hm.2⟩

/-- No cell below its lowest address is listed. -/
theorem cellAt_below {lo a : Nat} (h : a < lo) {m : Memory} (hm : cellsCanonical lo m = true) :
    cellAt m a = none := by
  induction m generalizing lo with
  | nil => rfl
  | cons c m ih =>
    obtain ⟨k, v⟩ := c
    simp only [cellsCanonical, Bool.and_eq_true, decide_eq_true_eq] at hm
    have hk : k ≠ a := by omega
    simpa [cellAt, hk] using ih (by omega) hm.2

/-- Listing a cell that differs from the default keeps the canonical form. -/
theorem cellInsert_canonical {lo a : Nat} {v : Pattern} (hlo : lo ≤ a) (ha : a < nDigits)
    (hv : v ≠ romDefault a) {m : Memory} (hm : cellsCanonical lo m = true) :
    cellsCanonical lo (cellInsert m a v) = true := by
  induction m generalizing lo with
  | nil => simp [cellInsert, cellsCanonical, hlo, ha, hv]
  | cons c m ih =>
    obtain ⟨k, w⟩ := c
    have hm' := hm
    simp only [cellsCanonical, Bool.and_eq_true, decide_eq_true_eq] at hm
    unfold cellInsert
    split
    · next h =>
      simp only [cellsCanonical, Bool.and_eq_true, decide_eq_true_eq]
      exact ⟨⟨⟨hlo, ha⟩, hv⟩, ⟨⟨⟨h, hm.1.1.2⟩, hm.1.2⟩, hm.2⟩⟩
    · split
      · next h h' =>
        subst h'
        simp only [cellsCanonical, Bool.and_eq_true, decide_eq_true_eq]
        exact ⟨⟨⟨hlo, ha⟩, hv⟩, hm.2⟩
      · next h h' =>
        simp only [cellsCanonical, Bool.and_eq_true, decide_eq_true_eq]
        exact ⟨hm.1, ih (by omega) hm.2⟩

/-- Taking a cell out keeps the canonical form. -/
theorem cellErase_canonical {lo : Nat} (a : Nat) {m : Memory} (hm : cellsCanonical lo m = true) :
    cellsCanonical lo (cellErase m a) = true := by
  induction m generalizing lo with
  | nil => rfl
  | cons c m ih =>
    obtain ⟨k, w⟩ := c
    simp only [cellsCanonical, Bool.and_eq_true, decide_eq_true_eq] at hm
    unfold cellErase
    split
    · exact cellsCanonical_mono (by omega) hm.2
    · simp only [cellsCanonical, Bool.and_eq_true, decide_eq_true_eq]
      exact ⟨hm.1, ih hm.2⟩

/-- Setting an entry keeps the canonical form. -/
theorem romPut_wf {m : Memory} (hm : Memory.wf m = true) (d : Fin 10) (v : Pattern) :
    Memory.wf (romPut m d v) = true := by
  unfold romPut
  split
  · exact cellErase_canonical _ hm
  · next h => exact cellInsert_canonical (Nat.zero_le _) d.isLt h hm

/-- The cell listed at an address after another cell was inserted. -/
theorem cellAt_cellInsert (m : Memory) (a b : Nat) (v : Pattern) :
    cellAt (cellInsert m a v) b = if a = b then some v else cellAt m b := by
  induction m with
  | nil => simp [cellInsert, cellAt]
  | cons c m ih =>
    obtain ⟨k, w⟩ := c
    unfold cellInsert
    split
    · simp [cellAt]
    · split
      · next h' => subst h'; simp only [cellAt]; split <;> simp_all
      · next h' =>
        simp only [cellAt, ih]
        by_cases hk : k = b
        · have : a ≠ b := fun e => h' (hk.trans e.symm)
          simp [hk, this]
        · simp [hk]

/-- The cell listed at an address after a cell was taken out of a canonical list. -/
theorem cellAt_cellErase {lo : Nat} {m : Memory} (hm : cellsCanonical lo m = true) (a b : Nat) :
    cellAt (cellErase m a) b = if a = b then none else cellAt m b := by
  induction m generalizing lo with
  | nil => simp [cellErase, cellAt]
  | cons c m ih =>
    obtain ⟨k, w⟩ := c
    simp only [cellsCanonical, Bool.and_eq_true, decide_eq_true_eq] at hm
    unfold cellErase
    split
    · next h =>
      subst h
      by_cases hb : k = b
      · subst hb; simpa using cellAt_below (Nat.lt_succ_self k) hm.2
      · simp [cellAt, hb]
    · next h =>
      simp only [cellAt, ih hm.2]
      by_cases hk : k = b
      · have : a ≠ b := fun e => h (hk.trans e.symm)
        simp [hk, this]
      · simp [hk]

/-- Read after write: the entry set holds the value, every other entry its old one. -/
theorem romEntry_romPut {m : Memory} (hm : Memory.wf m = true) (d e : Fin 10) (v : Pattern) :
    romEntry (romPut m d v) e = if d = e then v else romEntry m e := by
  unfold romEntry romPut
  split
  · next h =>
    rw [cellAt_cellErase hm]
    by_cases hde : d = e
    · subst hde; simp [h]
    · have : d.val ≠ e.val := fun h => hde (Fin.ext h)
      simp [hde, this]
  · rw [cellAt_cellInsert]
    by_cases hde : d = e
    · subst hde; simp
    · have : d.val ≠ e.val := fun h => hde (Fin.ext h)
      simp [hde, this]

end Sys2Proof.Machine
end

