-- ==== Sys2Proof/Laws/State.lean ====
section
/-! SUPPORT. One lemma per field of State per named update, each true by rfl. -/

namespace Sys2Proof.Machine

variable (s : State)

@[simp] theorem State.quiet_fsm : s.quiet.fsm = s.fsm := rfl
@[simp] theorem State.quiet_blinkCnt : s.quiet.blinkCnt = s.blinkCnt := rfl
@[simp] theorem State.quiet_sleepCnt : s.quiet.sleepCnt = s.sleepCnt := rfl
@[simp] theorem State.quiet_led : s.quiet.led = s.led := rfl
@[simp] theorem State.quiet_err : s.quiet.err = s.err := rfl
@[simp] theorem State.quiet_frame : s.quiet.frame = s.frame := rfl
@[simp] theorem State.quiet_srData : s.quiet.srData = s.srData := rfl
@[simp] theorem State.quiet_srClk : s.quiet.srClk = s.srClk := rfl
@[simp] theorem State.quiet_srOe : s.quiet.srOe = s.srOe := rfl
@[simp] theorem State.quiet_digitSel : s.quiet.digitSel = s.digitSel := rfl
@[simp] theorem State.quiet_callerAt : s.quiet.callerAt = s.callerAt := rfl
@[simp] theorem State.quiet_rom : s.quiet.rom = s.rom := rfl
@[simp] theorem State.quiet_params : s.quiet.params = s.params := rfl
@[simp] theorem State.quiet_out : s.quiet.out = Outputs.quiet := rfl
@[simp] theorem State.quiet_trace : s.quiet.trace = s.trace := rfl
@[simp] theorem State.quiet_nClr : s.quiet.nClr = s.nClr := rfl
@[simp] theorem State.quiet_nToggle : s.quiet.nToggle = s.nToggle := rfl
@[simp] theorem State.quiet_inputs : s.quiet.inputs = s.inputs := rfl
@[simp] theorem State.quiet_draws : s.quiet.draws = s.draws := rfl

@[simp] theorem State.pulseClr_fsm : s.pulseClr.fsm = s.fsm := rfl
@[simp] theorem State.pulseClr_blinkCnt : s.pulseClr.blinkCnt = s.blinkCnt := rfl
@[simp] theorem State.pulseClr_sleepCnt : s.pulseClr.sleepCnt = s.sleepCnt := rfl
@[simp] theorem State.pulseClr_led : s.pulseClr.led = s.led := rfl
@[simp] theorem State.pulseClr_err : s.pulseClr.err = s.err := rfl
@[simp] theorem State.pulseClr_frame : s.pulseClr.frame = s.frame := rfl
@[simp] theorem State.pulseClr_srData : s.pulseClr.srData = s.srData := rfl
@[simp] theorem State.pulseClr_srClk : s.pulseClr.srClk = s.srClk := rfl
@[simp] theorem State.pulseClr_srOe : s.pulseClr.srOe = s.srOe := rfl
@[simp] theorem State.pulseClr_digitSel : s.pulseClr.digitSel = s.digitSel := rfl
@[simp] theorem State.pulseClr_callerAt : s.pulseClr.callerAt = s.callerAt := rfl
@[simp] theorem State.pulseClr_rom : s.pulseClr.rom = s.rom := rfl
@[simp] theorem State.pulseClr_params : s.pulseClr.params = s.params := rfl
@[simp] theorem State.pulseClr_out : s.pulseClr.out = { s.out with tmrClr := true } := rfl
@[simp] theorem State.pulseClr_trace : s.pulseClr.trace = s.trace := rfl
@[simp] theorem State.pulseClr_nClr : s.pulseClr.nClr = s.nClr + 1 := rfl
@[simp] theorem State.pulseClr_nToggle : s.pulseClr.nToggle = s.nToggle := rfl
@[simp] theorem State.pulseClr_inputs : s.pulseClr.inputs = s.inputs := rfl
@[simp] theorem State.pulseClr_draws : s.pulseClr.draws = s.draws := rfl

@[simp] theorem State.pulseToggle_fsm : s.pulseToggle.fsm = s.fsm := rfl
@[simp] theorem State.pulseToggle_blinkCnt : s.pulseToggle.blinkCnt = s.blinkCnt := rfl
@[simp] theorem State.pulseToggle_sleepCnt : s.pulseToggle.sleepCnt = s.sleepCnt := rfl
@[simp] theorem State.pulseToggle_led : s.pulseToggle.led = s.led := rfl
@[simp] theorem State.pulseToggle_err : s.pulseToggle.err = s.err := rfl
@[simp] theorem State.pulseToggle_frame : s.pulseToggle.frame = s.frame := rfl
@[simp] theorem State.pulseToggle_srData : s.pulseToggle.srData = s.srData := rfl
@[simp] theorem State.pulseToggle_srClk : s.pulseToggle.srClk = s.srClk := rfl
@[simp] theorem State.pulseToggle_srOe : s.pulseToggle.srOe = s.srOe := rfl
@[simp] theorem State.pulseToggle_digitSel : s.pulseToggle.digitSel = s.digitSel := rfl
@[simp] theorem State.pulseToggle_callerAt : s.pulseToggle.callerAt = s.callerAt := rfl
@[simp] theorem State.pulseToggle_rom : s.pulseToggle.rom = s.rom := rfl
@[simp] theorem State.pulseToggle_params : s.pulseToggle.params = s.params := rfl
@[simp] theorem State.pulseToggle_out : s.pulseToggle.out = { s.out with toggle := true } := rfl
@[simp] theorem State.pulseToggle_trace : s.pulseToggle.trace = s.trace := rfl
@[simp] theorem State.pulseToggle_nClr : s.pulseToggle.nClr = s.nClr := rfl
@[simp] theorem State.pulseToggle_nToggle : s.pulseToggle.nToggle = s.nToggle + 1 := rfl
@[simp] theorem State.pulseToggle_inputs : s.pulseToggle.inputs = s.inputs := rfl
@[simp] theorem State.pulseToggle_draws : s.pulseToggle.draws = s.draws := rfl

@[simp] theorem State.showSeg_fsm (p : Pattern) : (s.showSeg p).fsm = s.fsm := rfl
@[simp] theorem State.showSeg_blinkCnt (p : Pattern) : (s.showSeg p).blinkCnt = s.blinkCnt := rfl
@[simp] theorem State.showSeg_sleepCnt (p : Pattern) : (s.showSeg p).sleepCnt = s.sleepCnt := rfl
@[simp] theorem State.showSeg_led (p : Pattern) : (s.showSeg p).led = s.led := rfl
@[simp] theorem State.showSeg_err (p : Pattern) : (s.showSeg p).err = s.err := rfl
@[simp] theorem State.showSeg_frame (p : Pattern) : (s.showSeg p).frame = s.frame := rfl
@[simp] theorem State.showSeg_srData (p : Pattern) : (s.showSeg p).srData = s.srData := rfl
@[simp] theorem State.showSeg_srClk (p : Pattern) : (s.showSeg p).srClk = s.srClk := rfl
@[simp] theorem State.showSeg_srOe (p : Pattern) : (s.showSeg p).srOe = s.srOe := rfl
@[simp] theorem State.showSeg_digitSel (p : Pattern) : (s.showSeg p).digitSel = s.digitSel := rfl
@[simp] theorem State.showSeg_callerAt (p : Pattern) : (s.showSeg p).callerAt = s.callerAt := rfl
@[simp] theorem State.showSeg_rom (p : Pattern) : (s.showSeg p).rom = s.rom := rfl
@[simp] theorem State.showSeg_params (p : Pattern) : (s.showSeg p).params = s.params := rfl
@[simp] theorem State.showSeg_out (p : Pattern) : (s.showSeg p).out = { s.out with seg := some p } := rfl
@[simp] theorem State.showSeg_trace (p : Pattern) : (s.showSeg p).trace = s.trace := rfl
@[simp] theorem State.showSeg_nClr (p : Pattern) : (s.showSeg p).nClr = s.nClr := rfl
@[simp] theorem State.showSeg_nToggle (p : Pattern) : (s.showSeg p).nToggle = s.nToggle := rfl
@[simp] theorem State.showSeg_inputs (p : Pattern) : (s.showSeg p).inputs = s.inputs := rfl
@[simp] theorem State.showSeg_draws (p : Pattern) : (s.showSeg p).draws = s.draws := rfl

@[simp] theorem State.raiseErr_fsm (c : ErrBits) : (s.raiseErr c).fsm = s.fsm := rfl
@[simp] theorem State.raiseErr_blinkCnt (c : ErrBits) : (s.raiseErr c).blinkCnt = s.blinkCnt := rfl
@[simp] theorem State.raiseErr_sleepCnt (c : ErrBits) : (s.raiseErr c).sleepCnt = s.sleepCnt := rfl
@[simp] theorem State.raiseErr_led (c : ErrBits) : (s.raiseErr c).led = s.led := rfl
@[simp] theorem State.raiseErr_err (c : ErrBits) : (s.raiseErr c).err = s.err ||| c := rfl
@[simp] theorem State.raiseErr_frame (c : ErrBits) : (s.raiseErr c).frame = s.frame := rfl
@[simp] theorem State.raiseErr_srData (c : ErrBits) : (s.raiseErr c).srData = s.srData := rfl
@[simp] theorem State.raiseErr_srClk (c : ErrBits) : (s.raiseErr c).srClk = s.srClk := rfl
@[simp] theorem State.raiseErr_srOe (c : ErrBits) : (s.raiseErr c).srOe = s.srOe := rfl
@[simp] theorem State.raiseErr_digitSel (c : ErrBits) : (s.raiseErr c).digitSel = s.digitSel := rfl
@[simp] theorem State.raiseErr_callerAt (c : ErrBits) : (s.raiseErr c).callerAt = s.callerAt := rfl
@[simp] theorem State.raiseErr_rom (c : ErrBits) : (s.raiseErr c).rom = s.rom := rfl
@[simp] theorem State.raiseErr_params (c : ErrBits) : (s.raiseErr c).params = s.params := rfl
@[simp] theorem State.raiseErr_out (c : ErrBits) : (s.raiseErr c).out = s.out := rfl
@[simp] theorem State.raiseErr_trace (c : ErrBits) : (s.raiseErr c).trace = s.trace := rfl
@[simp] theorem State.raiseErr_nClr (c : ErrBits) : (s.raiseErr c).nClr = s.nClr := rfl
@[simp] theorem State.raiseErr_nToggle (c : ErrBits) : (s.raiseErr c).nToggle = s.nToggle := rfl
@[simp] theorem State.raiseErr_inputs (c : ErrBits) : (s.raiseErr c).inputs = s.inputs := rfl
@[simp] theorem State.raiseErr_draws (c : ErrBits) : (s.raiseErr c).draws = s.draws := rfl

@[simp] theorem State.pushInput_fsm (e : Input) : (s.pushInput e).fsm = s.fsm := rfl
@[simp] theorem State.pushInput_blinkCnt (e : Input) : (s.pushInput e).blinkCnt = s.blinkCnt := rfl
@[simp] theorem State.pushInput_sleepCnt (e : Input) : (s.pushInput e).sleepCnt = s.sleepCnt := rfl
@[simp] theorem State.pushInput_led (e : Input) : (s.pushInput e).led = s.led := rfl
@[simp] theorem State.pushInput_err (e : Input) : (s.pushInput e).err = s.err := rfl
@[simp] theorem State.pushInput_frame (e : Input) : (s.pushInput e).frame = s.frame := rfl
@[simp] theorem State.pushInput_srData (e : Input) : (s.pushInput e).srData = s.srData := rfl
@[simp] theorem State.pushInput_srClk (e : Input) : (s.pushInput e).srClk = s.srClk := rfl
@[simp] theorem State.pushInput_srOe (e : Input) : (s.pushInput e).srOe = s.srOe := rfl
@[simp] theorem State.pushInput_digitSel (e : Input) : (s.pushInput e).digitSel = s.digitSel := rfl
@[simp] theorem State.pushInput_callerAt (e : Input) : (s.pushInput e).callerAt = s.callerAt := rfl
@[simp] theorem State.pushInput_rom (e : Input) : (s.pushInput e).rom = s.rom := rfl
@[simp] theorem State.pushInput_params (e : Input) : (s.pushInput e).params = s.params := rfl
@[simp] theorem State.pushInput_out (e : Input) : (s.pushInput e).out = s.out := rfl
@[simp] theorem State.pushInput_trace (e : Input) : (s.pushInput e).trace = s.trace := rfl
@[simp] theorem State.pushInput_nClr (e : Input) : (s.pushInput e).nClr = s.nClr := rfl
@[simp] theorem State.pushInput_nToggle (e : Input) : (s.pushInput e).nToggle = s.nToggle := rfl
@[simp] theorem State.pushInput_inputs (e : Input) : (s.pushInput e).inputs = e :: s.inputs := rfl
@[simp] theorem State.pushInput_draws (e : Input) : (s.pushInput e).draws = s.draws := rfl

@[simp] theorem State.performBoot_fsm : s.performBoot.fsm = s.fsm := rfl
@[simp] theorem State.performBoot_blinkCnt : s.performBoot.blinkCnt = s.blinkCnt := rfl
@[simp] theorem State.performBoot_sleepCnt : s.performBoot.sleepCnt = s.sleepCnt := rfl
@[simp] theorem State.performBoot_led : s.performBoot.led = s.led := rfl
@[simp] theorem State.performBoot_err : s.performBoot.err = s.err := rfl
@[simp] theorem State.performBoot_frame : s.performBoot.frame = s.frame := rfl
@[simp] theorem State.performBoot_srData : s.performBoot.srData = s.srData := rfl
@[simp] theorem State.performBoot_srClk : s.performBoot.srClk = s.srClk := rfl
@[simp] theorem State.performBoot_srOe : s.performBoot.srOe = s.srOe := rfl
@[simp] theorem State.performBoot_digitSel : s.performBoot.digitSel = true := rfl
@[simp] theorem State.performBoot_callerAt : s.performBoot.callerAt = .mainLoop := rfl
@[simp] theorem State.performBoot_rom : s.performBoot.rom = s.rom := rfl
@[simp] theorem State.performBoot_params : s.performBoot.params = s.params := rfl
@[simp] theorem State.performBoot_out : s.performBoot.out = Outputs.quiet := rfl
@[simp] theorem State.performBoot_trace : s.performBoot.trace = s.trace := rfl
@[simp] theorem State.performBoot_nClr : s.performBoot.nClr = s.nClr := rfl
@[simp] theorem State.performBoot_nToggle : s.performBoot.nToggle = s.nToggle := rfl
@[simp] theorem State.performBoot_inputs : s.performBoot.inputs = s.inputs := rfl
@[simp] theorem State.performBoot_draws : s.performBoot.draws = s.draws := rfl

@[simp] theorem State.resetBlock_fsm : s.resetBlock.fsm = .idle := rfl
@[simp] theorem State.resetBlock_blinkCnt : s.resetBlock.blinkCnt = 0#5 := rfl
@[simp] theorem State.resetBlock_sleepCnt : s.resetBlock.sleepCnt = 0#16 := rfl
@[simp] theorem State.resetBlock_led : s.resetBlock.led = s.params.ledReset := rfl
@[simp] theorem State.resetBlock_err : s.resetBlock.err = 0#3 := rfl
@[simp] theorem State.resetBlock_frame : s.resetBlock.frame = .digit 9 := rfl
@[simp] theorem State.resetBlock_srData : s.resetBlock.srData = s.srData := rfl
@[simp] theorem State.resetBlock_srClk : s.resetBlock.srClk = s.srClk := rfl
@[simp] theorem State.resetBlock_srOe : s.resetBlock.srOe = s.srOe := rfl
@[simp] theorem State.resetBlock_digitSel : s.resetBlock.digitSel = s.digitSel := rfl
@[simp] theorem State.resetBlock_callerAt : s.resetBlock.callerAt = .boot := rfl
@[simp] theorem State.resetBlock_rom : s.resetBlock.rom = s.rom := rfl
@[simp] theorem State.resetBlock_params : s.resetBlock.params = s.params := rfl
@[simp] theorem State.resetBlock_out : s.resetBlock.out = { s.out with tmrClr := true } := rfl
@[simp] theorem State.resetBlock_trace : s.resetBlock.trace = s.trace := rfl
@[simp] theorem State.resetBlock_nClr : s.resetBlock.nClr = s.nClr + 1 := rfl
@[simp] theorem State.resetBlock_nToggle : s.resetBlock.nToggle = s.nToggle := rfl
@[simp] theorem State.resetBlock_inputs : s.resetBlock.inputs = s.inputs := rfl
@[simp] theorem State.resetBlock_draws : s.resetBlock.draws = s.draws := rfl

end Sys2Proof.Machine
end

