-- ==== Sys2Proof/Laws/Ops.lean ====
section
/-! SUPPORT. What each shared operation does to each field, said once: the line trace, the two
sub-steps of TICK, the start and the end of a sleep. -/

namespace Sys2Proof.Machine

open Sys2Proof.Config

/-! ### emit, emitAll, driveDisplay -/

@[simp] theorem State.emit_fsm (s : State) (w : LineWrite) : (s.emit w).fsm = s.fsm := by
  rcases w with ⟨_ | _ | _, _⟩ <;> rfl
@[simp] theorem State.emit_blinkCnt (s : State) (w : LineWrite) : (s.emit w).blinkCnt = s.blinkCnt := by
  rcases w with ⟨_ | _ | _, _⟩ <;> rfl
@[simp] theorem State.emit_sleepCnt (s : State) (w : LineWrite) : (s.emit w).sleepCnt = s.sleepCnt := by
  rcases w with ⟨_ | _ | _, _⟩ <;> rfl
@[simp] theorem State.emit_led (s : State) (w : LineWrite) : (s.emit w).led = s.led := by
  rcases w with ⟨_ | _ | _, _⟩ <;> rfl
@[simp] theorem State.emit_err (s : State) (w : LineWrite) : (s.emit w).err = s.err := by
  rcases w with ⟨_ | _ | _, _⟩ <;> rfl
@[simp] theorem State.emit_frame (s : State) (w : LineWrite) : (s.emit w).frame = s.frame := by
  rcases w with ⟨_ | _ | _, _⟩ <;> rfl
@[simp] theorem State.emit_digitSel (s : State) (w : LineWrite) : (s.emit w).digitSel = s.digitSel := by
  rcases w with ⟨_ | _ | _, _⟩ <;> rfl
@[simp] theorem State.emit_callerAt (s : State) (w : LineWrite) : (s.emit w).callerAt = s.callerAt := by
  rcases w with ⟨_ | _ | _, _⟩ <;> rfl
@[simp] theorem State.emit_rom (s : State) (w : LineWrite) : (s.emit w).rom = s.rom := by
  rcases w with ⟨_ | _ | _, _⟩ <;> rfl
@[simp] theorem State.emit_params (s : State) (w : LineWrite) : (s.emit w).params = s.params := by
  rcases w with ⟨_ | _ | _, _⟩ <;> rfl
@[simp] theorem State.emit_out (s : State) (w : LineWrite) : (s.emit w).out = s.out := by
  rcases w with ⟨_ | _ | _, _⟩ <;> rfl
@[simp] theorem State.emit_nClr (s : State) (w : LineWrite) : (s.emit w).nClr = s.nClr := by
  rcases w with ⟨_ | _ | _, _⟩ <;> rfl
@[simp] theorem State.emit_nToggle (s : State) (w : LineWrite) : (s.emit w).nToggle = s.nToggle := by
  rcases w with ⟨_ | _ | _, _⟩ <;> rfl
@[simp] theorem State.emit_inputs (s : State) (w : LineWrite) : (s.emit w).inputs = s.inputs := by
  rcases w with ⟨_ | _ | _, _⟩ <;> rfl
@[simp] theorem State.emit_draws (s : State) (w : LineWrite) : (s.emit w).draws = s.draws := by
  rcases w with ⟨_ | _ | _, _⟩ <;> rfl

/-- A write joins the end of the line trace. -/
@[simp] theorem State.emit_trace (s : State) (w : LineWrite) :
    (s.emit w).trace = s.trace ++ [w] := by
  rcases w with ⟨_ | _ | _, _⟩ <;> rfl

/-- Emitting a list is emitting its head and then its tail. -/
@[simp] theorem State.emitAll_nil (s : State) : s.emitAll [] = s := rfl

@[simp] theorem State.emitAll_cons (s : State) (w : LineWrite) (ws : List LineWrite) :
    s.emitAll (w :: ws) = (s.emit w).emitAll ws := rfl

/-- A list of writes joins the end of the line trace. -/
@[simp] theorem State.emitAll_trace (s : State) (ws : List LineWrite) :
    (s.emitAll ws).trace = s.trace ++ ws := by
  induction ws generalizing s with
  | nil => simp
  | cons w ws ih => simp [ih]

@[simp] theorem State.emitAll_fsm (s : State) (ws : List LineWrite) : (s.emitAll ws).fsm = s.fsm := by
  induction ws generalizing s with
  | nil => rfl
  | cons w ws ih => simp [ih]
@[simp] theorem State.emitAll_blinkCnt (s : State) (ws : List LineWrite) : (s.emitAll ws).blinkCnt = s.blinkCnt := by
  induction ws generalizing s with
  | nil => rfl
  | cons w ws ih => simp [ih]
@[simp] theorem State.emitAll_sleepCnt (s : State) (ws : List LineWrite) : (s.emitAll ws).sleepCnt = s.sleepCnt := by
  induction ws generalizing s with
  | nil => rfl
  | cons w ws ih => simp [ih]
@[simp] theorem State.emitAll_led (s : State) (ws : List LineWrite) : (s.emitAll ws).led = s.led := by
  induction ws generalizing s with
  | nil => rfl
  | cons w ws ih => simp [ih]
@[simp] theorem State.emitAll_err (s : State) (ws : List LineWrite) : (s.emitAll ws).err = s.err := by
  induction ws generalizing s with
  | nil => rfl
  | cons w ws ih => simp [ih]
@[simp] theorem State.emitAll_frame (s : State) (ws : List LineWrite) : (s.emitAll ws).frame = s.frame := by
  induction ws generalizing s with
  | nil => rfl
  | cons w ws ih => simp [ih]
@[simp] theorem State.emitAll_digitSel (s : State) (ws : List LineWrite) : (s.emitAll ws).digitSel = s.digitSel := by
  induction ws generalizing s with
  | nil => rfl
  | cons w ws ih => simp [ih]
@[simp] theorem State.emitAll_callerAt (s : State) (ws : List LineWrite) : (s.emitAll ws).callerAt = s.callerAt := by
  induction ws generalizing s with
  | nil => rfl
  | cons w ws ih => simp [ih]
@[simp] theorem State.emitAll_rom (s : State) (ws : List LineWrite) : (s.emitAll ws).rom = s.rom := by
  induction ws generalizing s with
  | nil => rfl
  | cons w ws ih => simp [ih]
@[simp] theorem State.emitAll_params (s : State) (ws : List LineWrite) : (s.emitAll ws).params = s.params := by
  induction ws generalizing s with
  | nil => rfl
  | cons w ws ih => simp [ih]
@[simp] theorem State.emitAll_out (s : State) (ws : List LineWrite) : (s.emitAll ws).out = s.out := by
  induction ws generalizing s with
  | nil => rfl
  | cons w ws ih => simp [ih]
@[simp] theorem State.emitAll_nClr (s : State) (ws : List LineWrite) : (s.emitAll ws).nClr = s.nClr := by
  induction ws generalizing s with
  | nil => rfl
  | cons w ws ih => simp [ih]
@[simp] theorem State.emitAll_nToggle (s : State) (ws : List LineWrite) : (s.emitAll ws).nToggle = s.nToggle := by
  induction ws generalizing s with
  | nil => rfl
  | cons w ws ih => simp [ih]
@[simp] theorem State.emitAll_inputs (s : State) (ws : List LineWrite) : (s.emitAll ws).inputs = s.inputs := by
  induction ws generalizing s with
  | nil => rfl
  | cons w ws ih => simp [ih]
@[simp] theorem State.emitAll_draws (s : State) (ws : List LineWrite) : (s.emitAll ws).draws = s.draws := by
  induction ws generalizing s with
  | nil => rfl
  | cons w ws ih => simp [ih]

@[simp] theorem State.driveDisplay_fsm (s : State) (p : Pattern) : (s.driveDisplay p).fsm = s.fsm :=
  State.emitAll_fsm s _
@[simp] theorem State.driveDisplay_blinkCnt (s : State) (p : Pattern) : (s.driveDisplay p).blinkCnt = s.blinkCnt :=
  State.emitAll_blinkCnt s _
@[simp] theorem State.driveDisplay_sleepCnt (s : State) (p : Pattern) : (s.driveDisplay p).sleepCnt = s.sleepCnt :=
  State.emitAll_sleepCnt s _
@[simp] theorem State.driveDisplay_led (s : State) (p : Pattern) : (s.driveDisplay p).led = s.led :=
  State.emitAll_led s _
@[simp] theorem State.driveDisplay_err (s : State) (p : Pattern) : (s.driveDisplay p).err = s.err :=
  State.emitAll_err s _
@[simp] theorem State.driveDisplay_frame (s : State) (p : Pattern) : (s.driveDisplay p).frame = s.frame :=
  State.emitAll_frame s _
@[simp] theorem State.driveDisplay_digitSel (s : State) (p : Pattern) : (s.driveDisplay p).digitSel = s.digitSel :=
  State.emitAll_digitSel s _
@[simp] theorem State.driveDisplay_callerAt (s : State) (p : Pattern) : (s.driveDisplay p).callerAt = s.callerAt :=
  State.emitAll_callerAt s _
@[simp] theorem State.driveDisplay_rom (s : State) (p : Pattern) : (s.driveDisplay p).rom = s.rom :=
  State.emitAll_rom s _
@[simp] theorem State.driveDisplay_params (s : State) (p : Pattern) : (s.driveDisplay p).params = s.params :=
  State.emitAll_params s _
@[simp] theorem State.driveDisplay_out (s : State) (p : Pattern) : (s.driveDisplay p).out = s.out :=
  State.emitAll_out s _
@[simp] theorem State.driveDisplay_nClr (s : State) (p : Pattern) : (s.driveDisplay p).nClr = s.nClr :=
  State.emitAll_nClr s _
@[simp] theorem State.driveDisplay_nToggle (s : State) (p : Pattern) : (s.driveDisplay p).nToggle = s.nToggle :=
  State.emitAll_nToggle s _
@[simp] theorem State.driveDisplay_inputs (s : State) (p : Pattern) : (s.driveDisplay p).inputs = s.inputs :=
  State.emitAll_inputs s _
@[simp] theorem State.driveDisplay_draws (s : State) (p : Pattern) : (s.driveDisplay p).draws = s.draws :=
  State.emitAll_draws s _

/-- DISPLAY appends its 29 writes to the line trace (R89). -/
@[simp] theorem State.driveDisplay_trace (s : State) (p : Pattern) :
    (s.driveDisplay p).trace = s.trace ++ displayTrace p :=
  State.emitAll_trace s _

/-- The trace of one DISPLAY, written out (R89). -/
theorem displayTrace_eq (p : Pattern) :
    displayTrace p =
      ⟨.oe, false⟩ :: (bitPeriod p 0 ++ bitPeriod p 1 ++ bitPeriod p 2 ++ bitPeriod p 3 ++
        bitPeriod p 4 ++ bitPeriod p 5 ++ bitPeriod p 6 ++ bitPeriod p 7 ++ bitPeriod p 8) ++
        [⟨.oe, true⟩] := rfl

/-- The levels DISPLAY leaves on the lines: visible, clock high, data 0 (R89). -/
@[simp] theorem State.driveDisplay_srOe (s : State) (p : Pattern) : (s.driveDisplay p).srOe = true :=
  rfl

@[simp] theorem State.driveDisplay_srClk (s : State) (p : Pattern) :
    (s.driveDisplay p).srClk = true := rfl

@[simp] theorem State.driveDisplay_srData (s : State) (p : Pattern) :
    (s.driveDisplay p).srData = false := rfl

/-! ### The two sub-steps of TICK -/

/-- The blink sub-step at the wrap (R68). -/
theorem State.blinkStep_wrap {s : State} (h : s.blinkCnt = 31#5) :
    s.blinkStep = State.pulseToggle { s with blinkCnt := 0#5, led := s.led ^^^ 0b11#2 } :=
  if_pos h

/-- The blink sub-step below the wrap (R68). -/
theorem State.blinkStep_count {s : State} (h : s.blinkCnt ≠ 31#5) :
    s.blinkStep = { s with blinkCnt := s.blinkCnt + 1#5 } := if_neg h

/-- The blink counter after the sub-step is the count modulo 32, at the wrap and below it (R68). -/
@[simp] theorem State.blinkStep_blinkCnt (s : State) : s.blinkStep.blinkCnt = s.blinkCnt + 1#5 := by
  by_cases h : s.blinkCnt = 31#5
  · rw [State.blinkStep_wrap h, h]; rfl
  · rw [State.blinkStep_count h]

@[simp] theorem State.blinkStep_fsm (s : State) : s.blinkStep.fsm = s.fsm := by
  unfold State.blinkStep; split <;> rfl
@[simp] theorem State.blinkStep_sleepCnt (s : State) : s.blinkStep.sleepCnt = s.sleepCnt := by
  unfold State.blinkStep; split <;> rfl
@[simp] theorem State.blinkStep_err (s : State) : s.blinkStep.err = s.err := by
  unfold State.blinkStep; split <;> rfl
@[simp] theorem State.blinkStep_frame (s : State) : s.blinkStep.frame = s.frame := by
  unfold State.blinkStep; split <;> rfl
@[simp] theorem State.blinkStep_srData (s : State) : s.blinkStep.srData = s.srData := by
  unfold State.blinkStep; split <;> rfl
@[simp] theorem State.blinkStep_srClk (s : State) : s.blinkStep.srClk = s.srClk := by
  unfold State.blinkStep; split <;> rfl
@[simp] theorem State.blinkStep_srOe (s : State) : s.blinkStep.srOe = s.srOe := by
  unfold State.blinkStep; split <;> rfl
@[simp] theorem State.blinkStep_digitSel (s : State) : s.blinkStep.digitSel = s.digitSel := by
  unfold State.blinkStep; split <;> rfl
@[simp] theorem State.blinkStep_callerAt (s : State) : s.blinkStep.callerAt = s.callerAt := by
  unfold State.blinkStep; split <;> rfl
@[simp] theorem State.blinkStep_rom (s : State) : s.blinkStep.rom = s.rom := by
  unfold State.blinkStep; split <;> rfl
@[simp] theorem State.blinkStep_params (s : State) : s.blinkStep.params = s.params := by
  unfold State.blinkStep; split <;> rfl
@[simp] theorem State.blinkStep_trace (s : State) : s.blinkStep.trace = s.trace := by
  unfold State.blinkStep; split <;> rfl
@[simp] theorem State.blinkStep_nClr (s : State) : s.blinkStep.nClr = s.nClr := by
  unfold State.blinkStep; split <;> rfl
@[simp] theorem State.blinkStep_inputs (s : State) : s.blinkStep.inputs = s.inputs := by
  unfold State.blinkStep; split <;> rfl
@[simp] theorem State.blinkStep_draws (s : State) : s.blinkStep.draws = s.draws := by
  unfold State.blinkStep; split <;> rfl

/-- The countdown sub-step acts only in COUNTING_DOWN (R69). -/
theorem State.countdownStep_still {s : State} (h : s.fsm ≠ .countingDown) : s.countdownStep = s := by
  unfold State.countdownStep; split <;> simp_all

/-- The countdown sub-step in COUNTING_DOWN (R69). -/
theorem State.countdownStep_counting {s : State} (h : s.fsm = .countingDown) :
    s.countdownStep =
      { s with sleepCnt := s.sleepCnt - 1#16
               fsm := if s.sleepCnt - 1#16 = 0#16 then .requestWake else .countingDown } := by
  simp [State.countdownStep, h]

@[simp] theorem State.countdownStep_blinkCnt (s : State) : s.countdownStep.blinkCnt = s.blinkCnt := by
  unfold State.countdownStep; split <;> rfl
@[simp] theorem State.countdownStep_led (s : State) : s.countdownStep.led = s.led := by
  unfold State.countdownStep; split <;> rfl
@[simp] theorem State.countdownStep_err (s : State) : s.countdownStep.err = s.err := by
  unfold State.countdownStep; split <;> rfl
@[simp] theorem State.countdownStep_frame (s : State) : s.countdownStep.frame = s.frame := by
  unfold State.countdownStep; split <;> rfl
@[simp] theorem State.countdownStep_srData (s : State) : s.countdownStep.srData = s.srData := by
  unfold State.countdownStep; split <;> rfl
@[simp] theorem State.countdownStep_srClk (s : State) : s.countdownStep.srClk = s.srClk := by
  unfold State.countdownStep; split <;> rfl
@[simp] theorem State.countdownStep_srOe (s : State) : s.countdownStep.srOe = s.srOe := by
  unfold State.countdownStep; split <;> rfl
@[simp] theorem State.countdownStep_digitSel (s : State) : s.countdownStep.digitSel = s.digitSel := by
  unfold State.countdownStep; split <;> rfl
@[simp] theorem State.countdownStep_callerAt (s : State) : s.countdownStep.callerAt = s.callerAt := by
  unfold State.countdownStep; split <;> rfl
@[simp] theorem State.countdownStep_rom (s : State) : s.countdownStep.rom = s.rom := by
  unfold State.countdownStep; split <;> rfl
@[simp] theorem State.countdownStep_params (s : State) : s.countdownStep.params = s.params := by
  unfold State.countdownStep; split <;> rfl
@[simp] theorem State.countdownStep_out (s : State) : s.countdownStep.out = s.out := by
  unfold State.countdownStep; split <;> rfl
@[simp] theorem State.countdownStep_trace (s : State) : s.countdownStep.trace = s.trace := by
  unfold State.countdownStep; split <;> rfl
@[simp] theorem State.countdownStep_nClr (s : State) : s.countdownStep.nClr = s.nClr := by
  unfold State.countdownStep; split <;> rfl
@[simp] theorem State.countdownStep_nToggle (s : State) : s.countdownStep.nToggle = s.nToggle := by
  unfold State.countdownStep; split <;> rfl
@[simp] theorem State.countdownStep_inputs (s : State) : s.countdownStep.inputs = s.inputs := by
  unfold State.countdownStep; split <;> rfl
@[simp] theorem State.countdownStep_draws (s : State) : s.countdownStep.draws = s.draws := by
  unfold State.countdownStep; split <;> rfl

/-! ### The start and the end of a sleep -/

/-- SLEEP has no cause for rejection exactly in IDLE with an operand not 0 (R66). -/
theorem sleepCauses_eq_zero (n : Ticks) (f : Fsm) : sleepCauses n f = 0#3 ↔ n ≠ 0#16 ∧ f = .idle := by
  unfold sleepCauses errZero errBusy
  by_cases hn : n = 0#16 <;> cases f <;> simp [hn]

/-- An accepted SLEEP (R66). -/
theorem State.requestSleep_accepted {s : State} {n : Ticks} (hn : n ≠ 0#16) (hf : s.fsm = .idle) :
    s.requestSleep n = State.pulseClr { s with sleepCnt := n, fsm := .countingDown } :=
  if_pos ((sleepCauses_eq_zero n s.fsm).2 ⟨hn, hf⟩)

/-- A rejected SLEEP (R66, R101). -/
theorem State.requestSleep_rejected {s : State} {n : Ticks} (h : n = 0#16 ∨ s.fsm ≠ .idle) :
    s.requestSleep n = s.raiseErr (sleepCauses n s.fsm) := by
  have hc : sleepCauses n s.fsm ≠ 0#3 := by
    rw [Ne, sleepCauses_eq_zero]; rintro ⟨hn, hf⟩; exact h.elim hn (fun hf' => hf' hf)
  exact if_neg hc

/-- An accepted RESUME (R70). -/
theorem State.completeSleep_accepted {s : State} (h : s.fsm = .requestWake) :
    s.completeSleep = State.pulseClr { s with fsm := .idle } := by
  simp [State.completeSleep, h]

/-- A rejected RESUME (R70, R105). -/
theorem State.completeSleep_rejected {s : State} (h : s.fsm ≠ .requestWake) :
    s.completeSleep = s.raiseErr errProto := by
  unfold State.completeSleep; split <;> simp_all

end Sys2Proof.Machine
end

