-- ==== Sys2Proof/Laws/PerInstr.lean ====
section
/-! SUPPORT. Statements about every instruction as syntax, one lemma per constructor. The family
EncodedInItsRow: the word an instruction encodes to hits the row of the opcode map that its
constructor stands for (30_encoding.md R50). -/

namespace Sys2Proof.Laws.EncodedInItsRow

/-- `(encode i and mask) = match` for the row of `i` (R50). -/
def Statement (i : Instr) : Prop := rowHits (rowOf i) (encode i) = true

theorem sleep (n : Ticks) : Statement (.sleep n) := by
  unfold Statement rowHits rowOf encode eventWord rowSleep
  rw [beq_iff_eq]
  ext j hj
  simp only [BitVec.getElem_and, BitVec.getElem_append]
  interval_cases j <;> simp

theorem tick : Statement .tick := rfl

theorem resume : Statement .resume := rfl

theorem encode (d : Digit) : Statement (.encode d) := by
  revert d; unfold Statement; decide

theorem encodeDp : Statement .encodeDp := rfl

theorem display (p : Pattern) : Statement (.display p) := by
  unfold Statement rowHits rowOf Sys2Proof.encode eventWord rowDisplay
  rw [beq_iff_eq]
  ext j hj
  simp only [BitVec.getElem_and, BitVec.getElem_append]
  interval_cases j <;> simp

theorem frame : Statement .frame := rfl

theorem reset : Statement .reset := rfl

end Sys2Proof.Laws.EncodedInItsRow
end

