-- ==== Sys2Proof/Laws/Step.lean ====
section
/-! SUPPORT. Everything a step and an operation can do, said once: `exec` by cases, and `step` by the
kind of its event. -/

namespace Sys2Proof.Machine

open Sys2Proof.Config

/-- The block's own operations always answer a next state; ENCODE answers one for a digit, FRAME in
IDLE. -/
theorem exec_next_cases {i : Instr} {s t : State} (h : exec i s = .next t) :
    (∃ n, i = .sleep n ∧ t = s.quiet.requestSleep n) ∨
    (i = .tick ∧ t = s.quiet.handleTick) ∨
    (i = .resume ∧ t = s.quiet.completeSleep) ∨
    (∃ (d : Digit) (p : Pattern), i = .encode d ∧ romRead s.rom d.toNat = some p ∧
      t = s.quiet.showSeg p) ∨
    (i = .encodeDp ∧ t = s.quiet.showSeg s.params.segDpOnly) ∨
    (∃ p, i = .display p ∧ t = s.quiet.driveDisplay p) ∨
    (i = .frame ∧ s.fsm = .idle ∧ t = s.quiet.runFrame) ∨
    (i = .reset ∧ t = s.quiet.resetBlock) := by
  cases i with
  | sleep n => injection h with h; exact .inl ⟨n, rfl, h.symm⟩
  | tick => injection h with h; exact .inr (.inl ⟨rfl, h.symm⟩)
  | resume => injection h with h; exact .inr (.inr (.inl ⟨rfl, h.symm⟩))
  | encode d =>
    simp only [exec, execEncode] at h
    split at h
    · next p hp => injection h with h; exact .inr (.inr (.inr (.inl ⟨d, p, rfl, hp, h.symm⟩)))
    · cases h
  | encodeDp => injection h with h; exact .inr (.inr (.inr (.inr (.inl ⟨rfl, h.symm⟩))))
  | display p =>
    injection h with h; exact .inr (.inr (.inr (.inr (.inr (.inl ⟨p, rfl, h.symm⟩)))))
  | frame =>
    simp only [exec, execFrame] at h
    split at h
    · next hf =>
      injection h with h
      exact .inr (.inr (.inr (.inr (.inr (.inr (.inl ⟨rfl, hf, h.symm⟩))))))
    · cases h
    · cases h
  | reset =>
    injection h with h; exact .inr (.inr (.inr (.inr (.inr (.inr (.inr ⟨rfl, h.symm⟩))))))

/-- FRAME in IDLE: the effect of R91, its SLEEP accepted. -/
theorem State.runFrame_eq {s : State} (h : s.fsm = .idle) :
    s.runFrame =
      { ((s.showSeg s.framePattern).driveDisplay s.framePattern).pulseClr with
        sleepCnt := frameDwell, fsm := .countingDown, frame := s.frame.next } := by
  unfold State.runFrame
  rw [State.requestSleep_accepted (by decide) (by simpa using h)]
  simp [State.pulseClr]

/-- What one step does, by the kind of its event (R36, log 1). -/
theorem step_next_cases {s t : State} (h : step s = .next t) :
    (∃ w rest i, s.inputs = .word w :: rest ∧ decode w = .ok i ∧
      exec i { s with inputs := rest } = .next t) ∨
    (∃ p rest i u, s.inputs = .pins p :: rest ∧ firstOp p = some i ∧
      exec i (s.takePins p rest) = .next u ∧ t = u.showSeg (segOutput p s)) ∨
    (∃ p rest, s.inputs = .pins p :: rest ∧ firstOp p = none ∧
      t = (s.takePins p rest).quiet.showSeg (segOutput p s)) ∨
    (∃ rest, s.inputs = .boot :: rest ∧ t = State.performBoot { s with inputs := rest }) := by
  unfold step fetch at h
  rcases hi : s.inputs with _ | ⟨_ | p | _, rest⟩
  · simp [hi] at h
  · next w =>
    rcases hd : decode w with why | i
    · simp [hi, hd] at h
    · simp only [hi, hd, withSeg] at h
      exact .inl ⟨w, rest, i, rfl, hd, h⟩
  · rcases ho : firstOp p with _ | i
    · simp only [hi, ho] at h
      injection h with h
      exact .inr (.inr (.inl ⟨p, rest, rfl, ho, h.symm⟩))
    · simp only [hi, ho] at h
      rcases hx : exec i (s.takePins p rest) with u | r | r
      · simp only [hx, withSeg] at h
        injection h with h
        exact .inr (.inl ⟨p, rest, i, u, rfl, ho, hx, h.symm⟩)
      · simp [hx, withSeg] at h
      · simp [hx, withSeg] at h
  · simp only [hi] at h
    injection h with h
    exact .inr (.inr (.inr ⟨rest, rfl, h.symm⟩))

/-- A run of `k + 1` steps of any machine is one step and then `k`. -/
theorem run_succ (M : Host.Core) (k : Nat) (s t : M.State) :
    M.run (k + 1) s = .next t ↔ ∃ u, M.step s = .next u ∧ M.run k u = .next t := by
  rw [Host.Core.run]
  cases M.step s with
  | next u => simp
  | fault r => simp
  | refused r => simp

/-- A run of `k + 1` steps of the block is one step and then `k`. -/
theorem core_run_succ (k : Nat) (s t : State) :
    Host.Core.run Sys2Proof.core (k + 1) s = .next t ↔
      ∃ u, step s = .next u ∧ Host.Core.run Sys2Proof.core k u = .next t :=
  run_succ Sys2Proof.core k s t

/-- A run of one operation and a list, taken apart. -/
theorem execAll_cons_next {i : Instr} {is : List Instr} {s t : State}
    (h : execAll (i :: is) s = .next t) : ∃ u, exec i s = .next u ∧ execAll is u = .next t := by
  simp only [execAll] at h
  split at h
  · next u hu => exact ⟨u, hu, h⟩
  · cases h
  · cases h

/-- The count along a run, past an operation that completes. -/
theorem countAlong_cons_next {p : Instr → State → Bool} {i : Instr} {is : List Instr}
    {s t : State} (h : exec i s = .next t) :
    countAlong p (i :: is) s = (p i s).toNat + countAlong p is t := by
  simp only [countAlong, h]

/-- Duties along a run, past an operation that completes. -/
theorem dutiful_cons_next {i : Instr} {is : List Instr} {s t : State} (h : exec i s = .next t) :
    dutiful (i :: is) s = (callerMay i s && dutiful is t) := by
  simp only [dutiful, h]

/-- Every stretch of a run without end is a finite run. -/
theorem IsExecution.execAll_stretch {ops : Nat → Instr} {st : Nat → State}
    (h : IsExecution ops st) (m k : Nat) :
    execAll ((List.range' k m).map ops) (st k) = .next (st (k + m)) := by
  induction m generalizing k with
  | zero => rfl
  | succ m ih =>
    simp only [List.range'_succ, List.map_cons, execAll, h k]
    rw [ih (k + 1), Nat.add_right_comm, Nat.add_assoc]

/-- One turn of the system, by the agent: the halted caller stands still, the booting caller boots,
MainLoop performs its operation, the timer a TICK, the reset agent a RESET (R9, R134). -/
theorem systemStep_next_cases {u : Turn} {s t : State} (h : systemStep u s = .next t) :
    (u = .caller ∧ callerNext s = none ∧ t = s) ∨
    (u = .caller ∧ s.callerAt = .boot ∧ t = s.performBoot) ∨
    (∃ i, u = .caller ∧ s.callerAt = .mainLoop ∧ mainLoopNext s = some i ∧ exec i s = .next t) ∨
    (u = .timer ∧ exec .tick s = .next t) ∨ (u = .reset ∧ exec .reset s = .next t) := by
  cases u with
  | timer => exact .inr (.inr (.inr (.inl ⟨rfl, h⟩)))
  | reset => exact .inr (.inr (.inr (.inr ⟨rfl, h⟩)))
  | caller =>
    rcases hn : callerNext s with _ | e
    · simp only [systemStep, Turn.event, hn] at h
      injection h with h
      exact .inl ⟨rfl, rfl, h.symm⟩
    · simp only [systemStep, Turn.event, hn] at h
      unfold callerNext at hn
      split at hn
      · cases hn
      · split at hn
        · next hb =>
          injection hn with hn
          subst hn
          injection h with h
          exact .inr (.inl ⟨rfl, hb, h.symm⟩)
        · next hm =>
          rcases hi : mainLoopNext s with _ | i
          · simp [hi] at hn
          · simp only [hi, Option.map_some, Option.some.injEq] at hn
            subst hn
            refine .inr (.inr (.inl ⟨i, rfl, hm, rfl, ?_⟩))
            unfold mainLoopNext at hi
            split at hi
            · injection hi with hi; subst hi; exact h
            · cases hi
            · injection hi with hi; subst hi; exact h

/-- A schedule, taken apart at its first turn. -/
theorem systemRun_cons_next {u : Turn} {us : List Turn} {s t : State}
    (h : systemRun (u :: us) s = .next t) :
    ∃ v, systemStep u s = .next v ∧ systemRun us v = .next t := by
  simp only [systemRun] at h
  split at h
  · next v hv => exact ⟨v, hv, h⟩
  · cases h
  · cases h

/-- A run of two lists is the run of the second from where the first ends. -/
theorem execAll_append {is js : List Instr} {s t : State} (h : execAll is s = .next t) :
    execAll (is ++ js) s = execAll js t := by
  induction is generalizing s with
  | nil => injection h with h; rw [h]; rfl
  | cons i is ih =>
    simp only [execAll, List.cons_append] at h ⊢
    split at h
    · next u hu => simpa [hu] using ih h
    · cases h
    · cases h

end Sys2Proof.Machine
end

