-- ==== Sys2Proof/Tests/Slice0.lean ====
section
/-! SUPPORT. The model's own tests. Expected values come from 95_test_vectors.md (T, X, G, E, F and
the decoder vectors) and from the encodings of 30_encoding.md; the witnesses show that the
hypotheses of the statements can be met, clause by clause, at the boundary values. -/

namespace Sys2Proof.Tests

open Sys2Proof.Machine Sys2Proof.Config

/-! ### Small states -/

/-- `(fsm, blink_cnt, sleep_cnt, led, err)`, everything else as after reset. -/
def tsb (f : Fsm) (b : BlinkCount) (n : Ticks) (l : LedPair) (e : ErrBits) : State :=
  { State.reset with fsm := f, blinkCnt := b, sleepCnt := n, led := l, err := e }

/-- A sleep in flight, `n` ticks to go. -/
def counting (n : Ticks) : State := tsb .countingDown 3 n 0b01 0

/-- Woken, not yet resumed. -/
def woken : State := tsb .requestWake 7 0 0b01 0

/-- MainLoop at a frame. -/
def atFrame (f : Frame) : State := { State.reset with frame := f }

/-- One event to come. -/
def withEvent (e : Input) (s : State) : State := s.pushInput e

/-- No event input asserted. -/
def idlePins : Pins := ⟨false, false, false, false, 0, false, 0⟩

/-- The outcome is a next state with this property. -/
def nextHas (o : Host.Outcome State Fault Refusal) (p : State → Bool) : Bool :=
  match o with
  | .next t => p t
  | .fault _ => false
  | .refused _ => false

/-- The outcome is this refusal. -/
def refusedBy (o : Host.Outcome State Fault Refusal) (r : Refusal) : Bool :=
  match o with
  | .next _ => false
  | .fault _ => false
  | .refused q => q == r

/-- The five registers are those of `u`, and the pulses are as given. -/
def registersAre (u : State) (clr toggle : Bool) (t : State) : Bool :=
  t.fsm == u.fsm && t.blinkCnt == u.blinkCnt && t.sleepCnt == u.sleepCnt && t.led == u.led &&
    t.err == u.err && t.out.tmrClr == clr && t.out.toggle == toggle

/-- One step on the word `w`. -/
def stepOn (w : EventWord) (s : State) : Host.Outcome State Fault Refusal :=
  step (withEvent (.word w) s)

/-! ### Well-formedness: the one check, ENCODE's digit (R49) -/

theorem test_wellFormed_refuses_digit_10_and_15 :
    ¬ (Instr.encode 10).WellFormed ∧ ¬ (Instr.encode 15).WellFormed := by decide

theorem test_wellFormed_accepts_digit_9 : (Instr.encode 9).WellFormed := by decide

/-! ### Decoding: words written out from R48 to R50, `op` in 19:16, then `arg`; R56's refusals -/

theorem test_decode_sleep : decode 0b0001_0000000001100100#20 = .ok (.sleep 100) := by rfl
theorem test_decode_sleep_longest : decode 0b0001_1111111111111111#20 = .ok (.sleep 65535) := by rfl
theorem test_decode_tick : decode 0b0010_0000000000000000#20 = .ok .tick := by rfl
theorem test_decode_resume : decode 0b0011_0000000000000000#20 = .ok .resume := by rfl
theorem test_decode_encode : decode 0b0100_0000000000001001#20 = .ok (.encode 9) := by rfl
theorem test_decode_encodeDp : decode 0b0101_0000000000000000#20 = .ok .encodeDp := by rfl
theorem test_decode_display : decode 0b0110_0000000011111111#20 = .ok (.display 0xFF) := by rfl
theorem test_decode_frame : decode 0b0111_0000000000000000#20 = .ok .frame := by rfl
theorem test_decode_reset : decode 0b1111_0000000000000000#20 = .ok .reset := by rfl

theorem test_decode_refuses_reserved :
    decode 0x00000#20 = .error .reservedOp ∧ decode 0x8FFFF#20 = .error .reservedOp ∧
    decode 0xE0000#20 = .error .reservedOp := ⟨rfl, rfl, rfl⟩

theorem test_decode_refuses_operands :
    decode 0x20001#20 = .error .operandNotZero ∧ decode 0x38000#20 = .error .operandNotZero ∧
    decode 0x50080#20 = .error .operandNotZero ∧ decode 0x70001#20 = .error .operandNotZero :=
  ⟨rfl, rfl, rfl, rfl⟩

theorem test_decode_refuses_digits :
    decode 0x4000A#20 = .error .digitOutOfRange ∧ decode 0x4000F#20 = .error .digitOutOfRange ∧
    decode 0x40019#20 = .error .digitOutOfRange := ⟨rfl, rfl, rfl⟩

theorem test_decode_refuses_wide_pattern : decode 0x60100#20 = .error .patternTooWide := by rfl

theorem test_decodeTableWord :
    decodeTableWord 24 0x10064 = some (.sleep 100) ∧ decodeTableWord 24 0xE0000 = none :=
  ⟨rfl, rfl⟩

/-! ### TimerScheduler -/

/-- T2, T5. -/
theorem test_sleep_accepted :
    nextHas (stepOn 0x10064 (tsb .idle 5 0 0b01 0))
      (registersAre (tsb .countingDown 5 100 0b01 0) true false) = true ∧
    nextHas (stepOn 0x1FFFF (tsb .idle 0 0 0b01 0))
      (registersAre (tsb .countingDown 0 65535 0b01 0) true false) = true := by decide

/-- T15, T17, T18. -/
theorem test_sleep_rejected :
    nextHas (stepOn 0x10000 (tsb .idle 3 0 0b01 0))
      (registersAre (tsb .idle 3 0 0b01 0b001) false false) = true ∧
    nextHas (stepOn 0x10007 (tsb .requestWake 3 0 0b01 0))
      (registersAre (tsb .requestWake 3 0 0b01 0b010) false false) = true ∧
    nextHas (stepOn 0x10000 (tsb .countingDown 3 42 0b01 0))
      (registersAre (tsb .countingDown 3 42 0b01 0b011) false false) = true := by decide

/-- T10: both sub-steps at their boundary. -/
theorem test_tick_at_both_boundaries :
    nextHas (stepOn 0x20000 (tsb .countingDown 31 1 0b01 0))
      (registersAre (tsb .requestWake 0 0 0b10 0) false true) = true := by decide

/-- T13: no wrap of `sleep_cnt` to 65535. -/
theorem test_tick_after_zero :
    nextHas (stepOn 0x20000 woken)
      (registersAre (tsb .requestWake 8 0 0b01 0) false false) = true := by decide

/-- T12. -/
theorem test_resume_accepted :
    nextHas (stepOn 0x30000 woken) (registersAre (tsb .idle 7 0 0b01 0) true false) = true := by
  decide

/-- T20. -/
theorem test_resume_rejected :
    nextHas (stepOn 0x30000 (tsb .countingDown 3 42 0b01 0b001))
      (registersAre (tsb .countingDown 3 42 0b01 0b101) false false) = true := by decide

/-- T21; `frame` is 9 again. -/
theorem test_reset_abandons_a_sleep :
    nextHas (stepOn 0xF0000 { tsb .countingDown 17 42 0b11 0b010 with frame := .dp })
      (fun t => registersAre (tsb .idle 0 0 0b00 0) true false t && t.frame == .digit 9) = true := by
  decide

/-- RESET leaves the lines and `digit_sel` alone (R131). -/
theorem test_reset_leaves_the_lines :
    nextHas (stepOn 0xF0000 { State.reset with srData := true, srOe := true, digitSel := true })
      (fun t => t.srData && !t.srClk && t.srOe && t.digitSel && t.trace == []) = true := by decide

/-! ### SegmentEncoder -/

/-- G0, G1, G9. -/
theorem test_encode_shows_the_default_table :
    nextHas (stepOn 0x40000 State.reset) (fun t => t.out.seg == some 0x3F) = true ∧
    nextHas (stepOn 0x40001 State.reset) (fun t => t.out.seg == some 0x06) = true ∧
    nextHas (stepOn 0x40009 State.reset) (fun t => t.out.seg == some 0x6F) = true := by decide

/-- G11, and the term that no word spells. -/
theorem test_encode_of_10_is_refused :
    refusedBy (stepOn 0x4000A State.reset) (.invalidWord .digitOutOfRange) = true ∧
    refusedBy (exec (.encode 10) State.reset) .digitOutOfRange = true := by decide

/-- G10. -/
theorem test_encodeDp_shows_the_point :
    nextHas (stepOn 0x50000 (counting 42))
      (fun t => t.out.seg == some 0x80 && registersAre (counting 42) false false t) = true := by decide

/-- A ROM with one entry changed shows it, and no other (R6, R30). -/
theorem test_rom_with_one_entry_set :
    romEntry (romPut [] 4 0xAA) 4 = 0xAA ∧ romEntry (romPut [] 4 0xAA) 5 = 0x6D ∧
    romPut (romPut [] 4 0xAA) 4 0x66 = [] := by decide

/-! ### The environment -/

/-- E6: the data at the nine rising edges, and the lines left. -/
theorem test_display_bits :
    nextHas (stepOn 0x6006F State.reset) (fun t =>
      sampledBits false false t.trace ==
        [false, true, true, false, true, true, true, true, false] &&
      t.trace.length == 29 && t.srOe && t.srClk && !t.srData) = true := by decide

/-- E3: the first three and the last write. -/
theorem test_display_begins_blanked :
    (displayTrace 0x80).take 4 = [⟨.oe, false⟩, ⟨.clk, false⟩, ⟨.data, true⟩, ⟨.clk, true⟩] ∧
    (displayTrace 0x80).getLast? = some ⟨.oe, true⟩ := by decide

/-- F2, F3. -/
theorem test_frame_wraps :
    nextHas (stepOn 0x70000 (atFrame (.digit 0))) (fun t =>
      t.frame == .dp && t.trace == displayTrace 0x3F && t.sleepCnt == 100 && t.lpm) = true ∧
    nextHas (stepOn 0x70000 (atFrame .dp)) (fun t =>
      t.frame == .digit 9 && t.trace == displayTrace 0x80 && t.sleepCnt == 100) = true := by decide

/-- F4. -/
theorem test_frame_refused_while_counting :
    refusedBy (stepOn 0x70000 { counting 17 with frame := .digit 5 }) .frameNotIdle = true := by
  decide

/-! ### The signal interface -/

/-- X1, first half: the tick is performed first and the request is still to come. -/
theorem test_tick_before_sleep_req :
    nextHas (step (withEvent (.pins { idlePins with tick := true, sleepReq := true, sleepMs := 10 })
        (tsb .idle 4 0 0b01 0)))
      (fun t => registersAre (tsb .idle 5 0 0b01 0) false false t &&
        t.inputs == [.pins { idlePins with sleepReq := true, sleepMs := 10 }]) = true := by decide

/-- X4: `rst` is performed alone. -/
theorem test_rst_alone :
    nextHas (step (withEvent (.pins { idlePins with rst := true, tick := true, sleepReq := true })
        (tsb .countingDown 4 9 0b01 0)))
      (fun t => registersAre (tsb .idle 0 0 0 0) true false t && t.inputs == []) = true := by decide

/-- `seg` of a digit of the domain, on the signals (R33). -/
theorem test_seg_on_the_signals :
    nextHas (step (withEvent (.pins { idlePins with digit := 9 }) State.reset))
      (fun t => t.out.seg == some 0x6F && t.draws == 0) = true := by decide

/-- Out of the domain the step goes on, and draws one value (R33, U4). -/
theorem test_seg_out_of_domain_goes_on :
    nextHas (step (withEvent (.pins { idlePins with digit := 10 }) State.reset))
      (fun t => t.draws == 1 && t.out.seg.isSome) = true := by decide

/-! ### The caller from boot on (R134, R136) -/

/-- The caller's first move after RESET asserts the digit select, and its second is FRAME. -/
theorem test_caller_boots_then_frames :
    nextHas (systemStep .caller State.reset)
      (fun t => t.digitSel && t.trace == [] && callerNext t == some (.word 0x70000)) = true ∧
    callerNext { counting 3 with callerAt := .mainLoop } = none := by decide

/-- RESET during MainLoop sends the caller back to boot (R131). -/
theorem test_reset_restarts_the_caller :
    nextHas (systemStep .reset { counting 3 with callerAt := .mainLoop, digitSel := true })
      (fun t => callerNext t == some .boot && t.digitSel) = true := by decide

/-! ### The text syntax (R54) -/

theorem test_text_of_sleep :
    parseLine "SLEEP 100 ; one frame".toList = some (some (.sleep 100)) ∧
    parseLine "SLEEP 0x64".toList = some (some (.sleep 100)) := by decide

theorem test_text_refuses :
    parseLine "ENCODE 10".toList = none ∧ parseLine "tick".toList = none ∧
    parseLine "; nothing".toList = some none := by decide

/-! ### Witnesses: the hypotheses of every statement that has one can be met -/

theorem witness_DecodeOfEncodeIsTheOperation :
    (Instr.encode 9).WellFormed ∧ (Instr.encode 0).WellFormed ∧ (Instr.sleep 65535).WellFormed ∧
    (Instr.display 255).WellFormed := by decide

theorem witness_EncodeOfDecodeIsTheWord :
    decode 0x40009#20 = .ok (.encode 9) ∧ decode 0x1FFFF#20 = .ok (.sleep 65535) := ⟨rfl, rfl⟩

theorem witness_OpcodeMapFixesEachOperation :
    decode 0x20000#20 = .ok .tick ∧ decode 0xF0000#20 = .ok .reset ∧
    decode 0x70000#20 = .ok .frame := ⟨rfl, rfl, rfl⟩

theorem witness_RefusedWordsAreTheFourItems :
    (withEvent (.word 0xE0000) State.reset).inputs = [.word 0xE0000] ∧
    decode 0xE0000#20 = .error .reservedOp ∧ decode 0xFFFFF#20 = .error .operandNotZero ∧
    decode 0x4000A#20 = .error .digitOutOfRange ∧ decode 0x60100#20 = .error .patternTooWide :=
  ⟨rfl, rfl, rfl, rfl, rfl⟩

theorem witness_OpcodeRowsNeverOverlap :
    rowTick ∈ opcodeTable ∧ rowHits rowTick 0x20000#20 = true := by decide

theorem witness_StepPerformsTheDecodedWord :
    (withEvent (.word 0x20000) woken).inputs = [.word 0x20000] ∧ decode 0x20000#20 = .ok .tick :=
  ⟨rfl, rfl⟩

theorem witness_StepWithoutEventIsStuck : State.reset.inputs = [] := rfl

theorem witness_SimultaneousEventsRunInFixedOrder :
    (withEvent (.pins { idlePins with tick := true, resume := true }) (counting 2)).inputs =
      [.pins { idlePins with tick := true, resume := true }] ∧
    (withEvent (.pins { idlePins with rst := true, tick := true }) (counting 2)).inputs =
      [.pins { idlePins with rst := true, tick := true }] ∧
    (withEvent (.pins idlePins) (counting 2)).inputs = [.pins idlePins] := ⟨rfl, rfl, rfl⟩

theorem witness_SegSignalIsCombinational :
    (withEvent (.pins { idlePins with digit := 10 }) State.reset).inputs =
      [.pins { idlePins with digit := 10 }] ∧
    ({ idlePins with dpOnly := true } : Pins).dpOnly = true ∧
    ({ idlePins with digit := 9 } : Pins).digit.toNat = (9 : Fin 10).val ∧
    10 ≤ ({ idlePins with digit := 10 } : Pins).digit.toNat ∧
    10 ≤ ({ idlePins with digit := 15 } : Pins).digit.toNat := by decide

theorem witness_DigitSelectIsAssertedAtBootOnly :
    (withEvent .boot State.reset).inputs = [.boot] ∧
    exec .tick State.reset = .next State.reset.quiet.handleTick := ⟨rfl, rfl⟩

theorem witness_SleepFollowsItsRule :
    ((1#16 ≠ 0#16 ∧ State.reset.fsm = .idle) ∧ (65535#16 ≠ 0#16 ∧ State.reset.fsm = .idle)) ∧
    (0#16 = 0#16 ∨ State.reset.fsm ≠ .idle) ∧ (7#16 = 0#16 ∨ (counting 42).fsm ≠ .idle) ∧
    (0#16 = 0#16 ∨ woken.fsm ≠ .idle) := by decide

theorem witness_RejectionChangesOnlyTheStickyBits :
    Instr.sleep 0 ≠ .reset ∧
    exec (.sleep 0) (counting 42) = .next ((counting 42).quiet.requestSleep 0) ∧
    (if (0 : Ticks) = 0#16 then 1#3 else 0#3) ||| (if (counting 42).fsm = .idle then 0#3 else 2#3) ≠
      0#3 ∧
    Instr.resume ≠ .reset ∧ exec .resume State.reset = .next State.reset.quiet.completeSleep ∧
    (if State.reset.fsm = .requestWake then 0#3 else 4#3) ≠ 0#3 ∧
    Instr.tick ≠ .reset ∧ exec .tick woken = .next woken.quiet.handleTick :=
  ⟨by decide, rfl, by decide, by decide, rfl, by decide, by decide, rfl⟩

theorem witness_BusySleepDoesNotDisturbTheSleepInFlight :
    (counting 42).fsm ≠ .idle ∧ woken.fsm ≠ .idle := by decide

theorem witness_TickAdvancesTheBlinkCounter :
    (tsb .idle 31 0 0 0).blinkCnt.toNat = 31 ∧ (tsb .idle 30 0 0 0).blinkCnt.toNat ≠ 31 := by decide

theorem witness_TickCountsDownOnlyWhileCounting :
    ((counting 1).fsm = .countingDown ∧ (counting 1).sleepCnt.toNat = 1) ∧
    ((counting 2).fsm = .countingDown ∧ (counting 2).sleepCnt.toNat ≠ 1) ∧
    State.reset.fsm ≠ .countingDown ∧ woken.fsm ≠ .countingDown := by decide

theorem witness_SleepLastsExactlyItsTicks :
    State.reset.fsm = .idle ∧ (3 : Ticks) ≠ 0#16 ∧ 2 < (3 : Ticks).toNat ∧
    (3 : Ticks).toNat ≤ 3 ∧ (∀ m, Instr.sleep m ∉ [Instr.resume, .tick]) ∧
    Instr.frame ∉ [Instr.resume, .tick] ∧ ∃ u, execAll [.resume, .tick] woken = .next u :=
  ⟨rfl, by decide, by decide, by decide, by simp, by decide, ⟨_, rfl⟩⟩

theorem witness_BlockingSleepClosedForm : State.reset.fsm = .idle ∧ (3 : Ticks) ≠ 0#16 := by decide

theorem witness_ResumeFollowsItsRule :
    woken.fsm = .requestWake ∧ State.reset.fsm ≠ .requestWake ∧
    (counting 1).fsm ≠ .requestWake := by decide

theorem witness_FsmTransitionTable :
    exec (.sleep 1) State.reset = .next (State.reset.quiet.requestSleep 1) ∧
    exec (.sleep 0) woken = .next (woken.quiet.requestSleep 0) ∧
    exec .tick (counting 1) = .next (counting 1).quiet.handleTick ∧
    exec .tick State.reset = .next State.reset.quiet.handleTick ∧
    exec .resume woken = .next woken.quiet.completeSleep ∧
    exec .resume (counting 1) = .next (counting 1).quiet.completeSleep ∧
    exec .reset (counting 1) = .next (counting 1).quiet.resetBlock ∧
    exec .frame State.reset = .next State.reset.quiet.runFrame ∧
    exec (.display 1) woken = .next (woken.quiet.driveDisplay 1) :=
  ⟨rfl, rfl, rfl, rfl, rfl, rfl, rfl, rfl, rfl⟩

theorem witness_OperationsWriteOnlyTheirRegisters :
    exec .tick (tsb .countingDown 31 1 0b01 0) =
      .next (tsb .countingDown 31 1 0b01 0).quiet.handleTick ∧
    (tsb .countingDown 31 1 0b01 0).quiet.handleTick.blinkCnt ≠ 31#5 ∧
    (tsb .countingDown 31 1 0b01 0).quiet.handleTick.led ≠ 0b01#2 ∧
    (tsb .countingDown 31 1 0b01 0).quiet.handleTick.sleepCnt ≠ 1#16 ∧
    exec .resume State.reset = .next State.reset.quiet.completeSleep ∧
    State.reset.quiet.completeSleep.err ≠ State.reset.err ∧
    exec .frame State.reset = .next State.reset.quiet.runFrame ∧
    State.reset.quiet.runFrame.fsm ≠ State.reset.fsm ∧
    State.reset.quiet.runFrame.srClk ≠ State.reset.srClk ∧
    State.reset.quiet.runFrame.srOe ≠ State.reset.srOe ∧
    exec (.display 0) { State.reset with srData := true } =
      .next (State.driveDisplay 0 { State.reset with srData := true }) ∧
    (State.driveDisplay 0 { State.reset with srData := true }).srData ≠ true ∧
    State.reset.quiet.runFrame.frame ≠ State.reset.frame ∧
    State.reset.quiet.runFrame.trace ≠ State.reset.trace :=
  ⟨rfl, by decide, by decide, by decide, rfl, by decide, rfl, by decide, by decide, by decide, rfl,
    by decide, by decide, by decide⟩

theorem witness_BlinkDutyIgnoresEverythingButTicks :
    [Instr.tick, .encodeDp].filter (fun i => i = .tick ∨ i = .reset) =
      [Instr.resume, .tick].filter (fun i => i = .tick ∨ i = .reset) ∧
    SameBlink (counting 2) (tsb .idle 3 0 0b01 0) ∧
    (tsb .idle 3 0 0b01 0).params = (counting 2).params ∧
    (∃ t, execAll [.tick, .encodeDp] (counting 2) = .next t) ∧
    ∃ t, execAll [.resume, .tick] (tsb .idle 3 0 0b01 0) = .next t :=
  ⟨by decide, ⟨rfl, rfl⟩, rfl, ⟨_, rfl⟩, ⟨_, rfl⟩⟩

theorem witness_CountdownIgnoresTheBlinkState :
    SameTimer (counting 2) (tsb .countingDown 31 2 0b10 0b100) ∧
    (∃ t, execAll [.tick, .tick] (counting 2) = .next t) ∧
    ∃ t, execAll [.tick, .tick] (tsb .countingDown 31 2 0b10 0b100) = .next t :=
  ⟨⟨rfl, rfl⟩, ⟨_, rfl⟩, ⟨_, rfl⟩⟩

theorem witness_ErrBitsStayUntilReset :
    Instr.reset ∉ [Instr.tick, .resume] ∧
    (∃ t, execAll [.tick, .resume] (tsb .idle 0 0 0 0b001) = .next t) ∧
    (tsb .idle 0 0 0 0b001).err.getLsbD 0 = true := ⟨by decide, ⟨_, rfl⟩, by decide⟩

theorem witness_SleepInFlightCannotBeCancelled :
    Instr.reset ∉ [Instr.tick, .resume, .sleep 7] ∧ (counting 2).fsm = .countingDown ∧
    [Instr.tick, .resume, .sleep 7].count .tick < (counting 2).sleepCnt.toNat ∧
    ∃ t, execAll [.tick, .resume, .sleep 7] (counting 2) = .next t :=
  ⟨by decide, rfl, by decide, ⟨_, rfl⟩⟩

theorem witness_LowPowerIsEnteredAndLeftAsStated :
    (exec (.sleep 1) State.reset = .next (State.reset.quiet.requestSleep 1) ∧
      State.reset.power = .active ∧ (State.reset.quiet.requestSleep 1).power = .lowPower) ∧
    (exec .tick (counting 1) = .next (counting 1).quiet.handleTick ∧
      (counting 1).power = .lowPower ∧ (counting 1).quiet.handleTick.power = .active) :=
  ⟨⟨rfl, by decide, by decide⟩, ⟨rfl, by decide, by decide⟩⟩

theorem witness_PulsesAreAssertedExactlyByTheirOperations :
    exec .resume woken = .next woken.quiet.completeSleep ∧
    exec .tick (tsb .idle 31 0 0 0) = .next (tsb .idle 31 0 0 0).quiet.handleTick := ⟨rfl, rfl⟩

theorem witness_SleepsAndResumesAlternate :
    Instr.reset ∉ [Instr.sleep 1, .tick, .resume] ∧
    ∃ t, execAll [.sleep 1, .tick, .resume] State.reset = .next t := ⟨by decide, ⟨_, rfl⟩⟩

/-- The schedule SLEEP 1, TICK, RESUME, over and over. -/
def fairOps (k : Nat) : Instr :=
  if k % 3 = 0 then .sleep 1 else if k % 3 = 1 then .tick else .resume

/-- The states it passes, from reset. -/
def fairStates : Nat → State
  | 0 => State.reset
  | k + 1 =>
    match exec (fairOps k) (fairStates k) with
    | .next t => t
    | .fault _ => fairStates k
    | .refused _ => fairStates k

theorem witness_FairRunsCompleteEverySleep :
    FairRun fairOps fairStates ∧ (∀ j, fairOps j ≠ .reset) ∧
    (fairOps 0 = .sleep 1 ∧ (1 : Ticks) ≠ 0#16 ∧ (fairStates 0).fsm = .idle) := by
  refine ⟨⟨fun k => ?_, fun k => ⟨3 * k + 1, by omega, .inr ?_⟩,
    fun k => ⟨3 * k + 2, by omega, .inr ?_⟩⟩, fun j => ?_, rfl, by decide, rfl⟩
  · simp only [fairStates, fairOps]
    split_ifs <;> rfl
  · rw [fairOps, if_neg (by omega), if_pos (by omega)]
  · rw [fairOps, if_neg (by omega), if_neg (by omega)]
  · unfold fairOps
    split_ifs <;> decide

theorem witness_EncodeShowsTheTableEntry :
    10 ≤ (10 : Digit).toNat ∧ 10 ≤ (15 : Digit).toNat := by decide

theorem witness_EncodeTermAboveNineIsRefused :
    10 ≤ (10 : Digit).toNat ∧ 10 ≤ (15 : Digit).toNat := by decide

theorem witness_AnySegmentTableCanBeHeld :
    ({ State.reset with rom := romOfTable (Vector.replicate 10 0xAA) } : State).rom =
      romOfTable (Vector.replicate 10 0xAA) := rfl

theorem witness_OnlyElevenPatternsAreShown :
    (exec (.encode 9) State.reset = .next (State.reset.quiet.showSeg 0x6F) ∧
      (State.reset.quiet.showSeg 0x6F).out.seg = some 0x6F) ∧
    exec .frame State.reset = .next State.reset.quiet.runFrame := ⟨⟨rfl, rfl⟩, rfl⟩

theorem witness_NoRunWritesTheRomOrAParameter :
    ∃ t, Host.Core.run Sys2Proof.core 1 (withEvent (.word 0xF0000) State.reset) = .next t :=
  ⟨_, rfl⟩

theorem witness_DisplayTraceIsBlankedAndFaithful :
    (⟨.clk, false⟩ : LineWrite) ∈ (displayTrace 0x6F).tail.dropLast ∧
    displayTrace 0x6F = displayTrace 0x6F := ⟨by decide, rfl⟩

theorem witness_FrameFollowsItsRule :
    (∀ f : Frame, (atFrame f).fsm = .idle ∧ (atFrame f).frame = f) ∧
    1 ≤ (1 : Fin 10).val ∧ 1 ≤ (9 : Fin 10).val ∧ (counting 17).fsm ≠ .idle ∧ woken.fsm ≠ .idle :=
  ⟨fun _ => ⟨rfl, rfl⟩, by decide, by decide, by decide, by decide⟩

theorem witness_FrameShowsItsPatternOrStopsByName :
    (State.reset.fsm = .idle ∧ State.reset.frame = .digit 9) ∧
    ((atFrame .dp).fsm = .idle ∧ (atFrame .dp).frame = .dp) ∧ woken.fsm ≠ .idle := by decide

theorem witness_MainLoopFrameHoldsOneFrameFor100Ticks : State.reset.fsm = .idle ∧ 99 < 100 := by
  decide

theorem witness_MainLoopCycleShowsEachFrameOnce :
    State.reset.fsm = .idle ∧ State.reset.frame = .digit 9 := ⟨rfl, rfl⟩

theorem witness_ResetPutsTheBlockInItsFirstState :
    ({ idlePins with rst := true, tick := true } : Pins).rst = true ∧
    Instr.tick ≠ .reset ∧
    (exec .tick (tsb .countingDown 31 1 0 0b100) =
        .next (tsb .countingDown 31 1 0 0b100).quiet.handleTick ∧
      (tsb .countingDown 31 1 0 0b100).err.getLsbD 2 = true ∧
      (tsb .countingDown 31 1 0 0b100).blinkCnt ≠ 0#5 ∧
      (tsb .countingDown 31 1 0 0b100).quiet.handleTick.blinkCnt = 0#5 ∧
      (tsb .countingDown 31 1 0 0b100).quiet.handleTick.fsm ≠ .countingDown) :=
  ⟨rfl, by decide, rfl, by decide, by decide, by decide, by decide⟩

theorem witness_ResetStateHoldsTheResetValues :
    exec .reset (counting 9) = .next (counting 9).quiet.resetBlock ∧
    (counting 9).params = State.reset.params := ⟨rfl, rfl⟩

theorem witness_CallerStartsAtBoot :
    exec .reset (counting 9) = .next (counting 9).quiet.resetBlock ∧
    State.reset.callerAt = .boot ∧ State.reset.fsm = .idle := ⟨rfl, rfl, rfl⟩

theorem witness_SystemRunsWithoutErrorAndBootsFirst :
    (State.reset.err = 0#3 ∧ State.reset.callerAt ≠ .mainLoop) ∧
    (State.reset.performBoot.err = 0#3 ∧ State.reset.performBoot.callerAt = .mainLoop ∧
      State.reset.performBoot.digitSel = true ∧
      ∃ t, systemRun [.caller] State.reset.performBoot = .next t ∧
        t.trace ≠ State.reset.performBoot.trace) :=
  ⟨by decide, rfl, rfl, rfl, ⟨_, rfl, by decide⟩⟩

theorem witness_EveryStepKeepsTheInvariants :
    Inv (withEvent (.word 0x20000) { counting 2 with led := 0b11 }) ∧
    ∃ t, step (withEvent (.word 0x20000) { counting 2 with led := 0b11 }) = .next t :=
  ⟨⟨by decide, by decide, by decide, by decide, by decide, by decide, by decide⟩, ⟨_, rfl⟩⟩

theorem witness_LedsStayAPair :
    (State.reset.led.getLsbD 1 ^^ State.reset.led.getLsbD 0) =
      (State.reset.params.ledReset.getLsbD 1 ^^ State.reset.params.ledReset.getLsbD 0) ∧
    ∃ t, execAll [.tick, .reset] State.reset = .next t := ⟨rfl, ⟨_, rfl⟩⟩

theorem witness_DutifulCallersAreNeverRejected :
    State.reset.err = 0#3 ∧ dutiful [.sleep 1, .tick, .resume] State.reset = true ∧
    mainLoopNext State.reset = some .frame ∧ mainLoopNext woken = some .resume := by decide

theorem witness_AllowedOperationsComplete :
    callerMay (.encode 9) State.reset = true ∧ callerMay .frame State.reset = true ∧
    (Instr.encode 9).WellFormed ∧ Instr.encode 9 ≠ .frame := by decide

theorem witness_TextOfAnOperationReadsBack : (Instr.encode 9).WellFormed := by decide

end Sys2Proof.Tests
end

section
/-! SUPPORT. The outputs that hold nothing (10_state.md R16, R20): which operations assert the two
pulses, and the status outputs by `fsm`. -/

namespace Sys2Proof.Machine

@[simp] theorem Outputs.quiet_tmrClr : Outputs.quiet.tmrClr = false := rfl
@[simp] theorem Outputs.quiet_toggle : Outputs.quiet.toggle = false := rfl

/-! ### The pulses and their ghost counts, operation by operation (R20) -/

/-- SLEEP asserts `tmr_clr` exactly when it is accepted, and touches no other output (R66, R20). -/
theorem State.requestSleep_out (s : State) (n : Ticks) :
    (s.requestSleep n).out =
      if n ≠ 0#16 ∧ s.fsm = .idle then { s.out with tmrClr := true } else s.out := by
  split
  · next h => rw [State.requestSleep_accepted h.1 h.2, State.pulseClr_out]
  · next h => rw [State.requestSleep_rejected (by tauto), State.raiseErr_out]

theorem State.requestSleep_nClr (s : State) (n : Ticks) :
    (s.requestSleep n).nClr = if n ≠ 0#16 ∧ s.fsm = .idle then s.nClr + 1 else s.nClr := by
  split
  · next h => rw [State.requestSleep_accepted h.1 h.2, State.pulseClr_nClr]
  · next h => rw [State.requestSleep_rejected (by tauto), State.raiseErr_nClr]

@[simp] theorem State.requestSleep_nToggle (s : State) (n : Ticks) :
    (s.requestSleep n).nToggle = s.nToggle := by
  unfold State.requestSleep; split <;> rfl

/-- RESUME asserts `tmr_clr` exactly in REQUEST_WAKE, and touches no other output (R70, R20). -/
theorem State.completeSleep_out (s : State) :
    s.completeSleep.out =
      if s.fsm = .requestWake then { s.out with tmrClr := true } else s.out := by
  split
  · next h => rw [State.completeSleep_accepted h, State.pulseClr_out]
  · next h => rw [State.completeSleep_rejected h, State.raiseErr_out]

theorem State.completeSleep_nClr (s : State) :
    s.completeSleep.nClr = if s.fsm = .requestWake then s.nClr + 1 else s.nClr := by
  split
  · next h => rw [State.completeSleep_accepted h, State.pulseClr_nClr]
  · next h => rw [State.completeSleep_rejected h, State.raiseErr_nClr]

@[simp] theorem State.completeSleep_nToggle (s : State) : s.completeSleep.nToggle = s.nToggle := by
  unfold State.completeSleep; split <;> rfl

/-- The blink sub-step asserts `toggle` exactly at the wrap, and touches no other output (R68, R20). -/
theorem State.blinkStep_out (s : State) :
    s.blinkStep.out = if s.blinkCnt = 31#5 then { s.out with toggle := true } else s.out := by
  split
  · next h => rw [State.blinkStep_wrap h, State.pulseToggle_out]
  · next h => rw [State.blinkStep_count h]

theorem State.blinkStep_nToggle (s : State) :
    s.blinkStep.nToggle = if s.blinkCnt = 31#5 then s.nToggle + 1 else s.nToggle := by
  split
  · next h => rw [State.blinkStep_wrap h, State.pulseToggle_nToggle]
  · next h => rw [State.blinkStep_count h]

/-- TICK asserts `toggle` exactly at the wrap of `blink_cnt`: the countdown sub-step asserts
nothing (R68, R69). -/
theorem State.handleTick_out (s : State) :
    s.handleTick.out = if s.blinkCnt = 31#5 then { s.out with toggle := true } else s.out :=
  (State.countdownStep_out _).trans (State.blinkStep_out s)

theorem State.handleTick_nToggle (s : State) :
    s.handleTick.nToggle = if s.blinkCnt = 31#5 then s.nToggle + 1 else s.nToggle :=
  (State.countdownStep_nToggle _).trans (State.blinkStep_nToggle s)

@[simp] theorem State.handleTick_nClr (s : State) : s.handleTick.nClr = s.nClr :=
  (State.countdownStep_nClr _).trans (State.blinkStep_nClr s)

/-- FRAME in IDLE shows its pattern and asserts the `tmr_clr` of its SLEEP (R91, R20). -/
theorem State.runFrame_out {s : State} (h : s.fsm = .idle) :
    s.runFrame.out = { s.out with seg := some s.framePattern, tmrClr := true } := by
  simp [State.runFrame_eq h]

theorem State.runFrame_nClr {s : State} (h : s.fsm = .idle) : s.runFrame.nClr = s.nClr + 1 := by
  simp [State.runFrame_eq h]

theorem State.runFrame_nToggle {s : State} (h : s.fsm = .idle) :
    s.runFrame.nToggle = s.nToggle := by
  simp [State.runFrame_eq h]

/-- Settles O28, by the operation performed: each one's pulses and ghost counts are given by its
lemmas above. -/
theorem pulsesAreAssertedExactlyByTheirOperations :
    Obligations.PulsesAreAssertedExactlyByTheirOperations := by
  intro i s t h
  obtain ⟨n, rfl, rfl⟩ | ⟨rfl, rfl⟩ | ⟨rfl, rfl⟩ | ⟨d, p, rfl, -, rfl⟩ | ⟨rfl, rfl⟩ |
    ⟨p, rfl, rfl⟩ | ⟨rfl, hf, rfl⟩ | ⟨rfl, rfl⟩ := exec_next_cases h
  · by_cases ha : n ≠ 0#16 ∧ s.fsm = .idle <;>
      simp [State.requestSleep_out, State.requestSleep_nClr, ha]
  · by_cases hb : s.blinkCnt = 31#5 <;>
      simp [State.handleTick_out, State.handleTick_nToggle, hb]
  · by_cases hw : s.fsm = .requestWake <;>
      simp [State.completeSleep_out, State.completeSleep_nClr, hw]
  · simp
  · simp
  · simp
  · have hq : s.quiet.fsm = .idle := hf
    simp [State.runFrame_out hq, State.runFrame_nClr hq, State.runFrame_nToggle hq]
  · simp

/-! ### The status outputs by `fsm` (R16, R118) -/

theorem State.lpm_iff (s : State) : s.lpm = true ↔ s.fsm = .countingDown := by
  cases h : s.fsm <;> simp [State.lpm, h]

theorem State.wake_iff (s : State) : s.wake = true ↔ s.fsm = .requestWake := by
  cases h : s.fsm <;> simp [State.wake, h]

theorem State.busy_iff (s : State) : s.busy = true ↔ s.fsm ≠ .idle := by
  cases h : s.fsm <;> simp [State.busy, h]

theorem State.tmrMs_iff (s : State) : s.tmrMs = true ↔ s.fsm ≠ .idle := by
  cases h : s.fsm <;> simp [State.tmrMs, h]

/-- The timer runs at 1 ms exactly in the two states outside IDLE (R118). -/
theorem State.tickPeriod_oneMs_iff (s : State) :
    s.tickPeriod = .oneMs ↔ s.fsm = .countingDown ∨ s.fsm = .requestWake := by
  have hp : s.tickPeriod = .oneMs ↔ s.tmrMs = true := by
    unfold State.tickPeriod; split <;> simp_all
  rw [hp, State.tmrMs_iff]
  cases s.fsm <;> simp

/-- Settles O32: each output is a function of `fsm`, read off by its three states. -/
theorem statusOutputsFollowTheState : Obligations.StatusOutputsFollowTheState :=
  fun s => ⟨s.lpm_iff, s.wake_iff, s.busy_iff, s.tmrMs_iff, s.tickPeriod_oneMs_iff⟩

end Sys2Proof.Machine
end

section
/-! SUPPORT. The decoder against the opcode map: a word decodes to an operation exactly when it hits
that operation's row and its operand is read from the word, in range (30_encoding.md R49, R50). -/

namespace Sys2Proof

/-- The operand of `i`, where it has one, is its field of `w` and is in range (R49). -/
def ReadsOperand (w : EventWord) : Instr → Prop
  | .sleep n => n.toNat = w.toNat % 65536
  | .encode d => d.toNat = w.toNat % 16 ∧ d.toNat ≤ 9
  | .display p => p.toNat = w.toNat % 256
  | _ => True

theorem rowHits_iff (r : OpcodeRow) (w : EventWord) :
    rowHits r w = true ↔ w &&& r.mask = r.pattern := beq_iff_eq

/-- Each accepting branch of the decoder tests the row of the operation it answers. -/
theorem rowHits_of_decode {w : EventWord} {i : Instr} (h : decode w = .ok i) :
    rowHits (rowOf i) w = true ∧ ReadsOperand w i := by
  unfold decode at h
  split_ifs at h with hSleep hTick hResume hEncode hDp hDisplay hFrame hReset <;> cases h
  · exact ⟨hSleep, sleepOperand_toNat w⟩
  · exact ⟨hTick, trivial⟩
  · exact ⟨hResume, trivial⟩
  · obtain ⟨hRow, hRange⟩ := Bool.and_eq_true_iff.mp hEncode
    exact ⟨hRow, digitOperand_toNat w, of_decide_eq_true hRange⟩
  · exact ⟨hDp, trivial⟩
  · exact ⟨hDisplay, patternOperand_toNat w⟩
  · exact ⟨hFrame, trivial⟩
  · exact ⟨hReset, trivial⟩

/-- A word that hits a row hits no row the decoder tests before it, so the row's operation is the
one read from the word. -/
theorem decode_of_rowHits {w : EventWord} {i : Instr} (hRow : rowHits (rowOf i) w = true)
    (hRead : ReadsOperand w i) : decode w = .ok i := by
  rw [decode_toNat]
  cases i with
  | sleep n =>
    have hn : sleepOperand w = n := BitVec.eq_of_toNat_eq ((sleepOperand_toNat w).trans hRead.symm)
    rw [if_pos ((rowHits_sleep w).mp hRow), hn]
  | encode d =>
    obtain ⟨hd, hRange⟩ := hRead
    have hw : w.toNat / 16 = 0x4000 := (rowHits_encode w).mp hRow
    have hdigit : digitOperand w = d := BitVec.eq_of_toNat_eq ((digitOperand_toNat w).trans hd.symm)
    rw [if_neg (by omega), if_neg (by omega), if_neg (by omega), if_pos ⟨hw, hd ▸ hRange⟩, hdigit]
  | display p =>
    have hw : w.toNat / 256 = 0x600 := (rowHits_display w).mp hRow
    have hp : patternOperand w = p :=
      BitVec.eq_of_toNat_eq ((patternOperand_toNat w).trans hRead.symm)
    rw [if_neg (by omega), if_neg (by omega), if_neg (by omega), if_neg (by omega),
      if_neg (by omega), if_pos hw, hp]
  | tick | resume | encodeDp | frame | reset => simp [(rowHits_full _ _ w).mp hRow]

/-- R50: `w` is the operation `i` when `(w and mask) = match` and its operand is in range. -/
theorem decode_eq_ok_iff (w : EventWord) (i : Instr) :
    decode w = .ok i ↔ w &&& (rowOf i).mask = (rowOf i).pattern ∧ ReadsOperand w i := by
  rw [← rowHits_iff]
  exact ⟨rowHits_of_decode, fun ⟨hRow, hRead⟩ => decode_of_rowHits hRow hRead⟩

/-- The agent column of R50. -/
theorem Instr.agent_eq (i : Instr) :
    i.agent = if i = .tick then .timerHandler else if i = .reset then .reset else .caller := by
  cases i <;> rfl

/-- Settles O4, row by row from the decoder's reading of the opcode map. -/
theorem opcodeMapFixesEachOperation : Obligations.OpcodeMapFixesEachOperation := fun w =>
  have noOperand {i : Instr} (h : ReadsOperand w i) :
      decode w = .ok i ↔ w &&& (rowOf i).mask = (rowOf i).pattern :=
    (decode_eq_ok_iff w i).trans (and_iff_left h)
  ⟨fun n => decode_eq_ok_iff w (.sleep n),
    noOperand (i := .tick) trivial,
    noOperand (i := .resume) trivial,
    fun d => decode_eq_ok_iff w (.encode d),
    noOperand (i := .encodeDp) trivial,
    fun p => decode_eq_ok_iff w (.display p),
    noOperand (i := .frame) trivial,
    noOperand (i := .reset) trivial,
    fun i _ => i.agent_eq⟩

end Sys2Proof
end

section
/-! SUPPORT. The TimerScheduler family (40_timer_scheduler.md R66 to R72): SLEEP, TICK and RESUME by
outcome, what each leaves unchanged, the transition table of `fsm`. -/

namespace Sys2Proof.Machine

/-! ### The words of the three operations (30_encoding.md R50) -/

/-- R66 writes SLEEP's word as 0x10000 or `n`: the word the encoder gives. -/
theorem sleepWord_eq_encode (n : Ticks) : 0x10000#20 ||| n.zeroExtend 20 = encode (.sleep n) := rfl

theorem decode_encode_sleep (n : Ticks) : decode (encode (.sleep n)) = .ok (.sleep n) :=
  decode_of_rowHits (Laws.EncodedInItsRow.sleep n) <| by
    have hn := n.isLt
    have hw : (encode (.sleep n)).toNat = 1 * 65536 + n.toNat := eventWord_toNat 0x1#4 n
    simp only [ReadsOperand]; omega

/-! ### SLEEP and RESUME by outcome -/

/-- The rejection causes with one condition for each bit (R66, R110). -/
theorem sleepCauses_eq (n : Ticks) (f : Fsm) :
    sleepCauses n f =
      (if n = 0#16 then 0b001#3 else 0#3) ||| (if f ≠ .idle then 0b010#3 else 0#3) := by
  cases f <;> rfl

/-- With a sleep in flight the cause is ERR_BUSY, and ERR_ZERO too if `n` = 0 (R110). -/
theorem sleepCauses_of_busy {f : Fsm} (n : Ticks) (h : f ≠ .idle) :
    sleepCauses n f = if n = 0#16 then 0b011#3 else 0b010#3 := by
  rw [sleepCauses_eq, if_pos h]; split <;> rfl

theorem exec_sleep_accepted {s : State} {n : Ticks} (hn : n ≠ 0#16) (hf : s.fsm = .idle) :
    exec (.sleep n) s =
      .next (State.pulseClr { s.quiet with sleepCnt := n, fsm := .countingDown }) :=
  congrArg Host.Outcome.next (State.requestSleep_accepted (s := s.quiet) hn hf)

theorem exec_sleep_rejected {s : State} {n : Ticks} (h : n = 0#16 ∨ s.fsm ≠ .idle) :
    exec (.sleep n) s = .next (s.quiet.raiseErr (sleepCauses n s.fsm)) :=
  congrArg Host.Outcome.next (State.requestSleep_rejected (s := s.quiet) h)

theorem exec_resume_accepted {s : State} (h : s.fsm = .requestWake) :
    exec .resume s = .next (State.pulseClr { s.quiet with fsm := .idle }) :=
  congrArg Host.Outcome.next (State.completeSleep_accepted (s := s.quiet) h)

theorem exec_resume_rejected {s : State} (h : s.fsm ≠ .requestWake) :
    exec .resume s = .next (s.quiet.raiseErr errProto) :=
  congrArg Host.Outcome.next (State.completeSleep_rejected (s := s.quiet) h)

/-- The start and the end of a sleep pulse `tmr_clr` once, and nothing else. -/
theorem clrPulse_setTimer (s : State) (f : Fsm) (n : Ticks) :
    ClrPulse s (State.pulseClr { s.quiet with sleepCnt := n, fsm := f }) :=
  ⟨rfl, rfl, rfl, rfl⟩

/-- The start and the end of a sleep touch `fsm`, `sleep_cnt` and `tmr_clr` alone (R66, R70). -/
theorem setTimer_frame (s : State) (f : Fsm) (n : Ticks) :
    let t := State.pulseClr { s.quiet with sleepCnt := n, fsm := f }
    SameBlink s t ∧ t.err = s.err ∧ t.frame = s.frame ∧ SameLines s t ∧ SameFixed s t :=
  ⟨⟨rfl, rfl⟩, rfl, rfl, ⟨rfl, rfl, rfl, rfl⟩, ⟨⟨fun _ => rfl, rfl, rfl, rfl, rfl⟩, rfl⟩⟩

/-- A rejected operation touches `err` alone and gives no pulse (R101). -/
theorem rejected_frame (s : State) (c : ErrBits) :
    let t := s.quiet.raiseErr c
    SameTimer s t ∧ NoPulse s t ∧ SameBlink s t ∧ t.frame = s.frame ∧ SameLines s t ∧
      SameFixed s t :=
  ⟨⟨rfl, rfl⟩, ⟨rfl, rfl, rfl, rfl⟩, ⟨rfl, rfl⟩, rfl, ⟨rfl, rfl, rfl, rfl⟩,
    ⟨⟨fun _ => rfl, rfl, rfl, rfl, rfl⟩, rfl⟩⟩

/-! ### TICK, by the two sub-steps -/

/-- The LEDs are inverted exactly on the wrap (R68). -/
theorem State.blinkStep_led (s : State) :
    s.blinkStep.led = if s.blinkCnt = 31#5 then s.led ^^^ 0b11#2 else s.led := by
  split
  · next h => rw [State.blinkStep_wrap h, State.pulseToggle_led]
  · next h => rw [State.blinkStep_count h]

@[simp] theorem State.handleTick_blinkCnt (s : State) :
    s.handleTick.blinkCnt = s.blinkCnt + 1#5 :=
  (State.countdownStep_blinkCnt _).trans s.blinkStep_blinkCnt

theorem State.handleTick_led (s : State) :
    s.handleTick.led = if s.blinkCnt = 31#5 then s.led ^^^ 0b11#2 else s.led :=
  (State.countdownStep_led _).trans s.blinkStep_led

@[simp] theorem State.handleTick_err (s : State) : s.handleTick.err = s.err :=
  (State.countdownStep_err _).trans s.blinkStep_err

@[simp] theorem State.handleTick_frame (s : State) : s.handleTick.frame = s.frame :=
  (State.countdownStep_frame _).trans s.blinkStep_frame

/-- Outside COUNTING_DOWN a TICK leaves the countdown alone (R69). -/
theorem State.handleTick_sameTimer {s : State} (h : s.fsm ≠ .countingDown) :
    SameTimer s s.quiet.handleTick := by
  have hf : s.quiet.blinkStep.fsm ≠ .countingDown := by simpa using h
  rw [State.handleTick, State.countdownStep_still hf]
  exact ⟨s.quiet.blinkStep_fsm, s.quiet.blinkStep_sleepCnt⟩

/-- In COUNTING_DOWN a TICK takes one from `sleep_cnt` (R69). -/
theorem State.handleTick_sleepCnt_counting {s : State} (h : s.fsm = .countingDown) :
    s.handleTick.sleepCnt = s.sleepCnt - 1#16 := by
  rw [State.handleTick, State.countdownStep_counting (s.blinkStep_fsm.trans h),
    State.blinkStep_sleepCnt]

/-- In COUNTING_DOWN the TICK that takes the last one requests the wake-up (R69). -/
theorem State.handleTick_fsm_counting {s : State} (h : s.fsm = .countingDown) :
    s.handleTick.fsm = if s.sleepCnt = 1#16 then .requestWake else .countingDown := by
  rw [State.handleTick, State.countdownStep_counting (s.blinkStep_fsm.trans h)]
  simp [BitVec.sub_eq_iff_eq_add]

theorem State.handleTick_sameLines (s : State) : SameLines s s.quiet.handleTick := by
  constructor <;> simp [State.handleTick]

theorem State.handleTick_sameFixed (s : State) : SameFixed s s.quiet.handleTick := by
  constructor
  · constructor <;> simp [State.handleTick]
  · simp [State.handleTick]

@[simp] theorem State.handleTick_tmrClr (s : State) :
    s.handleTick.out.tmrClr = s.out.tmrClr := by
  rw [State.handleTick_out]; split <;> rfl

/-- The blink sub-step, the same for a TICK in every state of `fsm`, and no bit of `err`
(R67, R68). -/
theorem State.handleTick_blink (s : State) :
    let t := s.quiet.handleTick
    t.blinkCnt = s.blinkCnt + 1#5 ∧
      t.led = (if s.blinkCnt = 31#5 then s.led ^^^ 0b11#2 else s.led) ∧
      t.out.toggle = decide (s.blinkCnt = 31#5) ∧ t.err = s.err := by
  refine ⟨s.quiet.handleTick_blinkCnt, s.quiet.handleTick_led, ?_, s.quiet.handleTick_err⟩
  rw [State.handleTick_out]
  by_cases h : s.blinkCnt = 31#5 <;> simp [h]

/-! ### The obligations -/

/-- Settles O12, by whether the SLEEP is accepted: its causes are none exactly then. -/
theorem sleepFollowsItsRule : Obligations.SleepFollowsItsRule := by
  intro n s
  refine ⟨sleepWord_eq_encode n ▸ decode_encode_sleep n, rfl, fun hn hf => ?_, fun h => ?_⟩
  · exact ⟨_, exec_sleep_accepted hn hf, rfl, rfl, clrPulse_setTimer s _ n, rfl, rfl, rfl, rfl,
      setTimer_frame s _ n⟩
  · exact ⟨_, exec_sleep_rejected h, congrArg (s.err ||| ·) (sleepCauses_eq n s.fsm),
      rejected_frame s _⟩

/-- Settles O20, by whether the block is in REQUEST_WAKE. -/
theorem resumeFollowsItsRule : Obligations.ResumeFollowsItsRule := by
  refine ⟨rfl, rfl, fun s => ⟨fun hw => ?_, fun hw => ?_⟩⟩
  · exact ⟨_, exec_resume_accepted hw, rfl, rfl, clrPulse_setTimer s _ s.sleepCnt, rfl, rfl, rfl,
      setTimer_frame s _ s.sleepCnt⟩
  · exact ⟨_, exec_resume_rejected hw, rfl, rejected_frame s _⟩

/-- Settles O15, by whether the count wraps. -/
theorem tickAdvancesTheBlinkCounter : Obligations.TickAdvancesTheBlinkCounter := by
  intro s
  refine ⟨s.quiet.handleTick, rfl, fun hb => ?_, fun hb => ?_⟩
  · have h31 : s.blinkCnt = 31#5 := BitVec.eq_of_toNat_eq hb
    simp [State.handleTick_led, State.handleTick_out, State.handleTick_nToggle, h31]
  · have h31 : s.blinkCnt ≠ 31#5 := fun h => hb (congrArg BitVec.toNat h)
    have hlt := s.blinkCnt.isLt
    simp [State.handleTick_led, State.handleTick_out, State.handleTick_nToggle, h31]
    omega

/-- Settles O16: the blink sub-step in every state, the countdown sub-step by `fsm`, the rest by
TICK's frame. -/
theorem tickCountsDownOnlyWhileCounting : Obligations.TickCountsDownOnlyWhileCounting := by
  refine ⟨rfl, rfl, fun s => ?_⟩
  obtain ⟨hcnt, hled, htoggle, herr⟩ := s.handleTick_blink
  refine ⟨_, rfl, hcnt, hled, htoggle, ?_, fun hc => ⟨?_, fun h1 => ?_, fun h1 => ?_⟩,
    State.handleTick_sameTimer, herr, s.quiet.handleTick_frame, s.handleTick_sameLines,
    s.handleTick_sameFixed, s.quiet.handleTick_tmrClr, s.quiet.handleTick_nClr⟩
  · rw [State.handleTick_nToggle]
    by_cases h31 : s.blinkCnt = 31#5 <;> simp [h31]
  · exact State.handleTick_sleepCnt_counting (s := s.quiet) hc
  · have hf : s.quiet.handleTick.fsm = .requestWake :=
      (State.handleTick_fsm_counting (s := s.quiet) hc).trans (if_pos (BitVec.eq_of_toNat_eq h1))
    simp [State.lpm, State.wake, hf]
  · have hf : s.quiet.handleTick.fsm = .countingDown :=
      (State.handleTick_fsm_counting (s := s.quiet) hc).trans
        (if_neg fun h => h1 (congrArg BitVec.toNat h))
    simp [State.lpm, hf]

/-- Settles O21, by the operation performed and then by the row `fsm`. -/
theorem fsmTransitionTable : Obligations.FsmTransitionTable := by
  intro i s t h
  cases i with
  | sleep n =>
    have hbusy (hf : s.fsm ≠ .idle) : SameTimer s t ∧ t.out.tmrClr = false ∧
        t.err = s.err ||| (if n = 0#16 then 0b011#3 else 0b010#3) := by
      cases (exec_sleep_rejected (.inr hf)).symm.trans h
      exact ⟨⟨rfl, rfl⟩, rfl, congrArg (s.err ||| ·) (sleepCauses_of_busy n hf)⟩
    cases hf : s.fsm with
    | idle =>
      show if n = 0#16 then _ else _
      split
      · next hn =>
        cases (exec_sleep_rejected (.inl hn)).symm.trans h
        refine ⟨⟨rfl, rfl⟩, ?_, rfl⟩
        rw [hf, hn]; rfl
      · next hn =>
        cases (exec_sleep_accepted hn hf).symm.trans h
        exact ⟨rfl, rfl, rfl, rfl⟩
    | countingDown | requestWake => exact hbusy (by simp [hf])
  | tick =>
    cases h
    obtain ⟨hcnt, hled, htoggle, herr⟩ := s.handleTick_blink
    cases hf : s.fsm with
    | countingDown =>
      exact ⟨hcnt, hled, htoggle, State.handleTick_sleepCnt_counting (s := s.quiet) hf, herr,
        State.handleTick_fsm_counting (s := s.quiet) hf⟩
    | idle | requestWake =>
      exact ⟨hcnt, hled, htoggle, State.handleTick_sameTimer (by simp [hf]), herr⟩
  | resume =>
    cases hf : s.fsm with
    | requestWake =>
      cases (exec_resume_accepted hf).symm.trans h
      exact ⟨rfl, rfl, rfl, rfl⟩
    | idle | countingDown =>
      cases (exec_resume_rejected (by simp [hf])).symm.trans h
      exact ⟨⟨rfl, rfl⟩, rfl, rfl⟩
  | encode d =>
    obtain ⟨p, -, rfl⟩ : ∃ p, romRead s.rom d.toNat = some p ∧ t = s.quiet.showSeg p := by
      simpa using exec_next_cases h
    exact ⟨rfl, rfl⟩
  | encodeDp => cases h; exact ⟨rfl, rfl⟩
  | display p => cases h; exact ⟨s.quiet.driveDisplay_fsm p, s.quiet.driveDisplay_sleepCnt p⟩
  | frame =>
    obtain ⟨hf, rfl⟩ : s.fsm = .idle ∧ t = s.quiet.runFrame := by
      simpa using exec_next_cases h
    rw [State.runFrame_eq (s := s.quiet) hf]
    exact ⟨hf, rfl, rfl⟩
  | reset => cases h; exact rfl

end Sys2Proof.Machine
end

section
/-! SUPPORT. The SegmentEncoder family (41_segment_encoder.md R81, R83): the words of ENCODE and
ENCODE_DP, what the two operations do, and `seg` on the signal interface. -/

namespace Sys2Proof.Machine

/-! ### The words of the two operations (30_encoding.md R49, R50) -/

/-- R81 writes ENCODE's word as 0x40000 or `d`: the word the encoder gives. -/
theorem encodeWord_eq_encode (d : Digit) : 0x40000#20 ||| d.zeroExtend 20 = encode (.encode d) :=
  rfl

theorem encode_encode_toNat (d : Digit) : (encode (.encode d)).toNat = 0x40000 + d.toNat := by
  have hd := d.isLt
  rw [encode, eventWord_toNat, BitVec.toNat_setWidth, Nat.mod_eq_of_lt (by omega)]
  rfl

theorem decode_encode_encode {d : Digit} (hd : d.toNat ≤ 9) :
    decode (encode (.encode d)) = .ok (.encode d) := by
  have hRead : ReadsOperand (encode (.encode d)) (.encode d) := by
    simp only [ReadsOperand, encode_encode_toNat]
    omega
  exact decode_of_rowHits (Laws.EncodedInItsRow.encode d) hRead

/-- A digit above 9 is out of ENCODE's range, and `op` = 4 is in no other row (R56 item 3). -/
theorem decode_encode_encode_above {d : Digit} (hd : 10 ≤ d.toNat) :
    decode (encode (.encode d)) = .error .digitOutOfRange := by
  have hlt := d.isLt
  have hw := encode_encode_toNat d
  have hop : (opField (encode (.encode d))).toNat = 4 := by rw [opField_toNat]; omega
  have hreject : rejectOf (encode (.encode d)) = .digitOutOfRange := by simp [rejectOf, hop]
  rw [decode_toNat, if_neg (by omega), if_neg (by omega), if_neg (by omega), if_neg (by omega),
    if_neg (by omega), if_neg (by omega), if_neg (by omega), if_neg (by omega), hreject]

/-! ### A digit of the table as a 4-bit operand -/

theorem digit_toNat (d : Fin 10) : (BitVec.ofNat 4 d.val).toNat = d.val :=
  Nat.mod_eq_of_lt (by omega)

theorem digit_zeroExtend (d : Fin 10) :
    (BitVec.ofNat 4 d.val).zeroExtend 20 = BitVec.ofNat 20 d.val :=
  BitVec.eq_of_toNat_eq (by rw [BitVec.toNat_setWidth, digit_toNat, BitVec.toNat_ofNat])

theorem romRead_digit (m : Memory) (d : Fin 10) :
    romRead m (BitVec.ofNat 4 d.val).toNat = some (romEntry m d) := by
  rw [digit_toNat, romRead_entry]

/-! ### What the two operations and the two signals show -/

theorem exec_encode_of_romRead {d : Digit} {s : State} {p : Pattern}
    (h : romRead s.rom d.toNat = some p) : exec (.encode d) s = .next (s.quiet.showSeg p) := by
  simp only [exec, execEncode, h]

theorem exec_encodeDp (s : State) :
    exec .encodeDp s = .next (s.quiet.showSeg s.params.segDpOnly) := rfl

/-- Showing a pattern from the quiet state touches the outputs alone (R20, R81, R83). -/
theorem quiet_showSeg_eq (s : State) (p : Pattern) :
    s.quiet.showSeg p = { s with out := { seg := some p, tmrClr := false, toggle := false } } := rfl

/-- With `dp_only` = 0 `seg` is the ROM's entry, where the digit has one (R81). -/
theorem segOutput_of_romRead {p : Pins} {s : State} {v : Pattern} (hdp : p.dpOnly = false)
    (h : romRead s.rom p.digit.toNat = some v) : segOutput p s = v := by
  simp [segOutput, hdp, h]

/-- With `dp_only` = 1 `digit` is ignored (R83). -/
theorem segOutput_of_dpOnly {p : Pins} (s : State) (hdp : p.dpOnly = true) :
    segOutput p s = s.params.segDpOnly := if_pos hdp

/-! ### The obligations -/

/-- Settles O33: a digit 0 to 9 is in the operand's range and has an entry to read, whether asked for
by word or by signal; one above 9 is out of range. -/
theorem encodeShowsTheTableEntry : Obligations.EncodeShowsTheTableEntry := by
  refine ⟨fun d s => ⟨?_, ?_, ?_⟩, fun d hd => ?_⟩
  · rw [← digit_zeroExtend, encodeWord_eq_encode]
    exact decode_encode_encode (by rw [digit_toNat]; omega)
  · rw [exec_encode_of_romRead (romRead_digit s.rom d), quiet_showSeg_eq]
  · exact segOutput_of_romRead rfl (romRead_digit s.rom d)
  · rw [encodeWord_eq_encode]
    exact decode_encode_encode_above hd

/-- Settles O35: 0x50000 is the word the encoder gives ENCODE_DP, and both forms show the
parameter. -/
theorem encodeDpShowsTheDecimalPoint : Obligations.EncodeDpShowsTheDecimalPoint := by
  refine ⟨decode_of_rowHits Laws.EncodedInItsRow.encodeDp trivial, fun s => ⟨?_, fun d => ?_⟩⟩
  · rw [exec_encodeDp, quiet_showSeg_eq]
  · exact segOutput_of_dpOnly s rfl

end Sys2Proof.Machine
end

section
/-! SUPPORT. The environment's operations (42_environment_display_mainloop.md R88 to R91): the words of
DISPLAY and FRAME, the bits the shift register samples, what the two operations write and leave
unchanged, and the sequence of frames. -/

namespace Sys2Proof.Machine

/-! ### The word of DISPLAY (30_encoding.md R49, R50) -/

/-- R89 writes DISPLAY's word as 0x60000 or `p`: the word the encoder gives. -/
theorem displayWord_eq_encode (p : Pattern) : 0x60000#20 ||| p.zeroExtend 20 = encode (.display p) :=
  rfl

theorem encode_display_toNat (p : Pattern) : (encode (.display p)).toNat = 0x60000 + p.toNat := by
  have hp := p.isLt
  rw [encode, eventWord_toNat, BitVec.toNat_setWidth, Nat.mod_eq_of_lt (by omega)]
  rfl

theorem decode_encode_display (p : Pattern) : decode (encode (.display p)) = .ok (.display p) := by
  have hp := p.isLt
  have hRead : ReadsOperand (encode (.display p)) (.display p) := by
    simp only [ReadsOperand, encode_display_toNat]
    omega
  exact decode_of_rowHits (Laws.EncodedInItsRow.display p) hRead

/-! ### What the shift register samples (R88, R89) -/

/-- A bit period has one rising edge, whatever the levels before it, and the data line already has
the period's level there (R88). -/
theorem sampledBits_bitPeriod (clk data : Level) (p : Pattern) (k : Nat) (ws : List LineWrite) :
    sampledBits clk data (bitPeriod p k ++ ws) =
      periodLevel p k :: sampledBits true (periodLevel p k) ws := rfl

/-- The writes of any bit periods, the display shown after them, are sampled as the periods' levels
in order. -/
theorem sampledBits_bitPeriods (clk data : Level) (p : Pattern) (ks : List Nat) :
    sampledBits clk data (ks.flatMap (bitPeriod p) ++ [⟨.oe, true⟩]) = ks.map (periodLevel p) := by
  induction ks generalizing clk data with
  | nil => rfl
  | cons k ks ih =>
    rw [List.flatMap_cons, List.append_assoc, sampledBits_bitPeriod, ih, List.map_cons]

theorem sampledBits_displayTrace (clk data : Level) (p : Pattern) :
    sampledBits clk data (displayTrace p) = (List.range 9).map (periodLevel p) :=
  sampledBits_bitPeriods clk data p (List.range 9)

/-! ### What DISPLAY leaves unchanged (R89) -/

theorem State.driveDisplay_sameTimer (s : State) (p : Pattern) :
    SameTimer s (s.quiet.driveDisplay p) := by
  constructor <;> simp

theorem State.driveDisplay_sameBlink (s : State) (p : Pattern) :
    SameBlink s (s.quiet.driveDisplay p) := by
  constructor <;> simp

theorem State.driveDisplay_noPulse (s : State) (p : Pattern) :
    NoPulse s (s.quiet.driveDisplay p) := by
  constructor <;> simp

theorem State.driveDisplay_sameFixed (s : State) (p : Pattern) :
    SameFixed s (s.quiet.driveDisplay p) := by
  constructor
  · constructor <;> simp
  · simp

/-! ### The sequence of frames (R91) -/

theorem State.framePattern_digit {s : State} {d : Fin 10} (h : s.frame = .digit d) :
    s.framePattern = romEntry s.rom d := by
  simp [State.framePattern, h]

theorem State.framePattern_dp {s : State} (h : s.frame = .dp) :
    s.framePattern = s.params.segDpOnly := by
  simp [State.framePattern, h]

theorem Frame.next_digit {d : Fin 10} (h : d ≠ 0) : (Frame.digit d).next = .digit (d - 1) := if_neg h

theorem Frame.next_digit_zero : (Frame.digit 0).next = .dp := rfl

theorem Frame.next_dp : Frame.dp.next = .digit 9 := rfl

/-! ### FRAME by state (R91) -/

theorem exec_frame_idle {s : State} (h : s.fsm = .idle) : exec .frame s = .next s.quiet.runFrame := by
  simp [exec, execFrame, h]

theorem exec_frame_refused {s : State} (h : s.fsm ≠ .idle) :
    exec .frame s = .refused .frameNotIdle := by
  cases hf : s.fsm with
  | idle => exact absurd hf h
  | countingDown | requestWake => simp [exec, execFrame, hf]

/-- FRAME's writes to the lines are those of one DISPLAY of its pattern. -/
theorem State.runFrame_lines {s : State} (h : s.fsm = .idle) :
    s.runFrame.trace = s.trace ++ displayTrace s.framePattern ∧
      s.runFrame.srOe = true ∧ s.runFrame.srClk = true ∧ s.runFrame.srData = false := by
  simp [State.runFrame_eq h]

theorem State.runFrame_fsm {s : State} (h : s.fsm = .idle) : s.runFrame.fsm = .countingDown := by
  rw [State.runFrame_eq h]

theorem State.runFrame_sleepCnt {s : State} (h : s.fsm = .idle) : s.runFrame.sleepCnt = 100#16 := by
  rw [State.runFrame_eq h]; rfl

theorem State.runFrame_frame (s : State) : s.runFrame.frame = s.frame.next := rfl

/-- FRAME pulses `tmr_clr` once, by its SLEEP, and gives no other pulse. -/
theorem State.runFrame_clrPulse {s : State} (h : s.fsm = .idle) : ClrPulse s s.quiet.runFrame := by
  have hq : s.quiet.fsm = .idle := h
  constructor <;>
    simp [State.runFrame_out hq, State.runFrame_nClr hq, State.runFrame_nToggle hq]

theorem State.runFrame_sameBlink {s : State} (h : s.fsm = .idle) : SameBlink s s.quiet.runFrame := by
  rw [State.runFrame_eq (s := s.quiet) h]
  constructor <;> simp

theorem State.runFrame_err {s : State} (h : s.fsm = .idle) : s.runFrame.err = s.err := by
  simp [State.runFrame_eq h]

theorem State.runFrame_sameFixed {s : State} (h : s.fsm = .idle) : SameFixed s s.quiet.runFrame := by
  rw [State.runFrame_eq (s := s.quiet) h]
  constructor
  · constructor <;> simp
  · simp

/-! ### The obligations -/

/-- Settles O41: the trace is the algorithm's by definition, each bit period is sampled once, and the
writes touch the lines alone. -/
theorem displayFollowsTheAlgorithm : Obligations.DisplayFollowsTheAlgorithm := by
  intro p s
  exact ⟨displayWord_eq_encode p ▸ decode_encode_display p, s.quiet.driveDisplay p, rfl,
    s.quiet.driveDisplay_trace p, s.quiet.driveDisplay_srOe p, s.quiet.driveDisplay_srClk p,
    s.quiet.driveDisplay_srData p, sampledBits_displayTrace s.srClk s.srData p,
    s.driveDisplay_sameTimer p, s.driveDisplay_sameBlink p, s.quiet.driveDisplay_err p,
    s.quiet.driveDisplay_frame p, s.driveDisplay_noPulse p, s.driveDisplay_sameFixed p⟩

/-- Settles O43, by whether the block is in IDLE; there `p` is the pattern of the frame. -/
theorem frameFollowsItsRule : Obligations.FrameFollowsItsRule := by
  refine ⟨decode_of_rowHits Laws.EncodedInItsRow.frame trivial, fun s hf => ?_,
    fun s hf => ⟨_, exec_frame_refused hf⟩⟩
  have hq : s.quiet.fsm = .idle := hf
  have hnext : s.quiet.runFrame.frame = s.frame.next := s.quiet.runFrame_frame
  obtain ⟨htrace, hoe, hclk, hdata⟩ := State.runFrame_lines hq
  refine ⟨s.framePattern, s.quiet.runFrame, exec_frame_idle hf, fun _ => State.framePattern_digit,
    State.framePattern_dp, htrace, hoe, hclk, hdata, State.runFrame_fsm hq,
    State.runFrame_sleepCnt hq, State.runFrame_clrPulse hf, fun d hd h1 => ?_, fun h0 => ?_,
    fun hdp => ?_, State.runFrame_sameBlink hf, State.runFrame_err hq, State.runFrame_sameFixed hf⟩
  · have hne : d ≠ 0 := Fin.pos_iff_ne_zero.mp h1
    exact ⟨d - 1, by rw [hnext, hd, Frame.next_digit hne], Fin.val_sub_one_of_ne_zero hne⟩
  · rw [hnext, h0, Frame.next_digit_zero]
  · rw [hnext, hdp, Frame.next_dp]

end Sys2Proof.Machine
end

section
/-! SUPPORT. Exceptions (60_exceptions.md R101 to R105, R110): what a rejected operation leaves in
`err`, and that a TICK neither reads nor writes the sticky bits. -/

namespace Sys2Proof.Machine

/-! ### The sticky bits of one operation (R101, R102) -/

/-- From `s` to `t` the causes `code` are recorded in `err`; where there is one, that is the whole
effect, and no output is shown (R101). -/
def RaisesOnly (code : ErrBits) (s t : State) : Prop :=
  t.err = s.err ||| code ∧
    (code ≠ 0#3 → t = { s with out := Outputs.quiet, err := s.err ||| code })

theorem raisesOnly_raiseErr (code : ErrBits) (s : State) :
    RaisesOnly code s (s.quiet.raiseErr code) := ⟨rfl, fun _ => rfl⟩

theorem raisesOnly_zero {s t : State} (h : t.err = s.err) : RaisesOnly 0#3 s t :=
  ⟨h.trans BitVec.or_zero.symm, fun hne => absurd rfl hne⟩

/-- SLEEP records its causes, none where it is accepted (R66, R103, R104, R110). -/
theorem requestSleep_raisesOnly (n : Ticks) (s : State) :
    RaisesOnly (sleepCauses n s.fsm) s (s.quiet.requestSleep n) := by
  by_cases h : n ≠ 0#16 ∧ s.fsm = .idle
  · rw [State.requestSleep_accepted (s := s.quiet) h.1 h.2, (sleepCauses_eq_zero n s.fsm).2 h]
    exact raisesOnly_zero rfl
  · rw [State.requestSleep_rejected (s := s.quiet) (by simp only [State.quiet_fsm]; tauto)]
    exact raisesOnly_raiseErr _ s

/-- RESUME records ERR_PROTO, or nothing where it is accepted (R70, R105). -/
theorem completeSleep_raisesOnly (s : State) :
    RaisesOnly (if s.fsm = .requestWake then 0#3 else errProto) s s.quiet.completeSleep := by
  split
  · next h =>
    rw [State.completeSleep_accepted (s := s.quiet) h]
    exact raisesOnly_zero rfl
  · next h =>
    rw [State.completeSleep_rejected (s := s.quiet) h]
    exact raisesOnly_raiseErr _ s

/-- Settles O13, by the operation performed: SLEEP and RESUME record their causes, the others none. -/
theorem rejectionChangesOnlyTheStickyBits : Obligations.RejectionChangesOnlyTheStickyBits := by
  intro i s t hreset h
  obtain ⟨n, rfl, rfl⟩ | ⟨rfl, rfl⟩ | ⟨rfl, rfl⟩ | ⟨d, p, rfl, -, rfl⟩ | ⟨rfl, rfl⟩ |
    ⟨p, rfl, rfl⟩ | ⟨rfl, hf, rfl⟩ | ⟨rfl, -⟩ := exec_next_cases h
  · have hraises := requestSleep_raisesOnly n s
    rw [sleepCauses_eq, ite_not] at hraises
    exact hraises
  · exact raisesOnly_zero s.quiet.handleTick_err
  · exact completeSleep_raisesOnly s
  · exact raisesOnly_zero rfl
  · exact raisesOnly_zero rfl
  · exact raisesOnly_zero (s.quiet.driveDisplay_err p)
  · exact raisesOnly_zero (State.runFrame_err (s := s.quiet) hf)
  · exact absurd rfl hreset

/-! ### Ticks after sticky bits were set (R67, R104) -/

theorem State.blinkStep_raiseErr (c : ErrBits) (s : State) :
    (s.raiseErr c).blinkStep = s.blinkStep.raiseErr c := by
  by_cases h : s.blinkCnt = 31#5
  · rw [State.blinkStep_wrap h, State.blinkStep_wrap (s := s.raiseErr c) h]; rfl
  · rw [State.blinkStep_count h, State.blinkStep_count (s := s.raiseErr c) h]; rfl

theorem State.countdownStep_raiseErr (c : ErrBits) (s : State) :
    (s.raiseErr c).countdownStep = s.countdownStep.raiseErr c := by
  by_cases h : s.fsm = .countingDown
  · rw [State.countdownStep_counting h, State.countdownStep_counting (s := s.raiseErr c) h]; rfl
  · rw [State.countdownStep_still h, State.countdownStep_still (s := s.raiseErr c) h]

/-- Setting sticky bits commutes with a TICK. -/
theorem State.handleTick_raiseErr (c : ErrBits) (s : State) :
    (s.raiseErr c).handleTick = s.handleTick.raiseErr c := by
  rw [State.handleTick, State.blinkStep_raiseErr, State.countdownStep_raiseErr, State.handleTick]

theorem execAll_ticks_succ (k : Nat) (s : State) :
    execAll (ticks (k + 1)) s = execAll (ticks k) s.quiet.handleTick := rfl

/-- Two states that differ in sticky bits set, and in the outputs of their last operations, still
differ only so after any number of ticks. -/
theorem execAll_ticks_raiseErr {c : ErrBits} (k : Nat) {s r : State}
    (h : r.quiet = s.quiet.raiseErr c) :
    ∃ u v, execAll (ticks k) s = .next u ∧ execAll (ticks k) r = .next v ∧
      v.quiet = u.quiet.raiseErr c ∧ u.err = s.err := by
  induction k generalizing s r with
  | zero => exact ⟨s, r, rfl, rfl, h, rfl⟩
  | succ k ih =>
    have htick : r.quiet.handleTick = s.quiet.handleTick.raiseErr c := by
      rw [h, State.handleTick_raiseErr]
    obtain ⟨u, v, hu, hv, hq, herr⟩ := ih (congrArg State.quiet htick)
    exact ⟨u, v, hu, hv, hq, herr.trans s.quiet.handleTick_err⟩

/-- States that differ in sticky bits set, and in their outputs, agree in everything else. -/
theorem frame_of_quiet_eq_raiseErr {c : ErrBits} {u v : State} (h : v.quiet = u.quiet.raiseErr c) :
    SameTimer u v ∧ SameBlink u v ∧ v.nClr = u.nClr ∧ v.nToggle = u.nToggle ∧
      v.frame = u.frame ∧ SameLines u v ∧ SameFixed u v ∧ v.err = u.err ||| c := by
  have hfield {α : Type} (f : State → α) : f v.quiet = f (u.quiet.raiseErr c) := congrArg f h
  exact ⟨⟨hfield State.fsm, hfield State.sleepCnt⟩, ⟨hfield State.blinkCnt, hfield State.led⟩,
    hfield State.nClr, hfield State.nToggle, hfield State.frame,
    ⟨hfield State.srData, hfield State.srClk, hfield State.srOe, hfield State.trace⟩,
    ⟨⟨fun a => hfield (romRead ·.rom a), hfield State.params, hfield State.digitSel,
      hfield State.inputs, hfield State.draws⟩, hfield State.callerAt⟩, hfield State.err⟩

/-- Settles O14: the rejected SLEEP sets sticky bits alone, and ticks keep that the only
difference. -/
theorem busySleepDoesNotDisturbTheSleepInFlight :
    Obligations.BusySleepDoesNotDisturbTheSleepInFlight := by
  intro n k s hf
  have hsleep : exec (.sleep n) s = .next (s.quiet.raiseErr (sleepCauses n s.fsm)) :=
    exec_sleep_rejected (.inr hf)
  obtain ⟨u, v, hu, hv, hq, huerr⟩ :=
    execAll_ticks_raiseErr k (s := s) (r := s.quiet.raiseErr (sleepCauses n s.fsm)) rfl
  obtain ⟨htimer, hblink, hclr, htoggle, hframe, hlines, hfixed, hverr⟩ :=
    frame_of_quiet_eq_raiseErr hq
  rw [huerr, sleepCauses_of_busy n hf] at hverr
  exact ⟨u, v, hu, by simp only [execAll, hsleep, hv], htimer, hblink, hclr, htoggle, hframe,
    hlines, hfixed, hverr, huerr⟩

end Sys2Proof.Machine
end

section
/-! SUPPORT. The reset family (70_reset_and_hazards.md R131): what RESET writes and leaves alone, its
priority on the signal interface (60_exceptions.md R109), and what no other operation does. -/

namespace Sys2Proof.Machine

/-! ### A moment with `rst` asserted (R109) -/

theorem firstOp_of_rst {p : Pins} (h : p.rst = true) : firstOp p = some .reset := if_pos h

/-- After `rst` every other event input of the moment is ignored. -/
theorem leftover_of_rst {p : Pins} (h : p.rst = true) : leftover p = [] := by
  simp [leftover, afterFirst, firstOp, h]

/-! ### What RESET does (R131) -/

theorem exec_reset (s : State) : exec .reset s = .next s.quiet.resetBlock := rfl

theorem State.resetBlock_clrPulse (s : State) : ClrPulse s s.quiet.resetBlock :=
  ⟨rfl, rfl, rfl, rfl⟩

theorem State.resetBlock_sameLines (s : State) : SameLines s s.quiet.resetBlock :=
  ⟨rfl, rfl, rfl, rfl⟩

theorem State.resetBlock_sameSetup (s : State) : SameSetup s s.quiet.resetBlock :=
  ⟨fun _ => rfl, rfl, rfl, rfl, rfl⟩

/-! ### What no other operation does (R131) -/

@[simp] theorem State.requestSleep_blinkCnt (s : State) (n : Ticks) :
    (s.requestSleep n).blinkCnt = s.blinkCnt := by
  unfold State.requestSleep; split <;> rfl

@[simp] theorem State.completeSleep_blinkCnt (s : State) :
    s.completeSleep.blinkCnt = s.blinkCnt := by
  unfold State.completeSleep; split <;> rfl

/-- Every operation but RESET leaves each sticky bit that is set: it can only record more causes
(R101). -/
theorem err_bit_kept {i : Instr} {s t : State} (hi : i ≠ .reset) (h : exec i s = .next t) {b : Nat}
    (hb : s.err.getLsbD b = true) : t.err.getLsbD b = true := by
  obtain ⟨herr, -⟩ := rejectionChangesOnlyTheStickyBits i s t hi h
  rw [herr, BitVec.getLsbD_or, hb, Bool.true_or]

/-- Besides RESET only TICK writes `blink_cnt`, and it counts modulo 32 (R68). -/
theorem blinkCnt_kept_or_counted {i : Instr} {s t : State} (hi : i ≠ .reset)
    (h : exec i s = .next t) :
    t.blinkCnt = s.blinkCnt ∨ (i = .tick ∧ t.blinkCnt = s.blinkCnt + 1#5) := by
  obtain ⟨n, -, rfl⟩ | ⟨rfl, rfl⟩ | ⟨-, rfl⟩ | ⟨d, p, -, -, rfl⟩ | ⟨-, rfl⟩ | ⟨p, -, rfl⟩ |
    ⟨-, hf, rfl⟩ | ⟨rfl, -⟩ := exec_next_cases h
  · exact .inl (s.quiet.requestSleep_blinkCnt n)
  · exact .inr ⟨rfl, s.quiet.handleTick_blinkCnt⟩
  · exact .inl s.quiet.completeSleep_blinkCnt
  · exact .inl rfl
  · exact .inl rfl
  · exact .inl (s.quiet.driveDisplay_blinkCnt p)
  · exact .inl (State.runFrame_sameBlink hf).blinkCnt
  · exact absurd rfl hi

/-- A sleep in flight is left, but for RESET, only by the TICK that counts the last one. -/
theorem tick_of_leaves_countingDown {i : Instr} {s t : State} (hi : i ≠ .reset)
    (h : exec i s = .next t) (hf : s.fsm = .countingDown) (hleft : t.fsm ≠ .countingDown) :
    i = .tick ∧ s.sleepCnt = 1#16 := by
  have hrow := fsmTransitionTable i s t h
  rw [hf] at hrow
  have hmoved : ¬ SameTimer s t := fun hsame => hleft (hsame.fsm.trans hf)
  cases i with
  | tick =>
    obtain ⟨-, -, -, -, -, hfsm⟩ := hrow
    exact ⟨rfl, by_contra fun h1 => hleft (hfsm.trans (if_neg h1))⟩
  | sleep n | resume => exact absurd hrow.1 hmoved
  | encode d | encodeDp | display p => exact absurd hrow hmoved
  | frame => exact absurd hrow.2.1 hleft
  | reset => exact absurd rfl hi

/-- Settles O47: RESET's writes are its definition's; the three "only" clauses come from what the
other operations do to `err`, `blink_cnt` and `fsm`. -/
theorem resetPutsTheBlockInItsFirstState : Obligations.ResetPutsTheBlockInItsFirstState := by
  refine ⟨decode_of_rowHits Laws.EncodedInItsRow.reset trivial,
    fun p hp => ⟨firstOp_of_rst hp, leftover_of_rst hp⟩,
    fun s => ⟨_, exec_reset s, rfl, rfl, rfl, rfl, rfl, rfl, rfl, s.resetBlock_clrPulse,
      s.resetBlock_sameLines, s.resetBlock_sameSetup⟩,
    fun i s t hi h => ⟨fun b => err_bit_kept hi h, fun hs ht => ?_,
      tick_of_leaves_countingDown hi h⟩⟩
  obtain hkept | ⟨htick, hcounted⟩ := blinkCnt_kept_or_counted hi h
  · exact absurd (hkept.symm.trans ht) hs
  · have hwrap : s.blinkCnt + 1#5 = 0#5 := hcounted.symm.trans ht
    exact ⟨htick, by bv_omega⟩

end Sys2Proof.Machine
end

section
/-! SUPPORT. Event words of every operation (30_encoding.md R48 to R56): decoding and encoding undo
each other, no two rows of the opcode map overlap, and which words are refused under which name. -/

namespace Sys2Proof.Machine

/-! ### Decoding and encoding undo each other (R48 to R50) -/

theorem decode_encode {i : Instr} (h : i.WellFormed) : decode (encode i) = .ok i := by
  cases i with
  | sleep n => exact decode_encode_sleep n
  | encode d => exact decode_encode_encode (of_decide_eq_true h)
  | display p => exact decode_encode_display p
  | tick => exact decode_of_rowHits Laws.EncodedInItsRow.tick trivial
  | resume => exact decode_of_rowHits Laws.EncodedInItsRow.resume trivial
  | encodeDp => exact decode_of_rowHits Laws.EncodedInItsRow.encodeDp trivial
  | frame => exact decode_of_rowHits Laws.EncodedInItsRow.frame trivial
  | reset => exact decode_of_rowHits Laws.EncodedInItsRow.reset trivial

/-- The decoder reads no digit above 9 (R49). -/
theorem wellFormed_of_decode {w : EventWord} {i : Instr} (h : decode w = .ok i) : i.WellFormed := by
  obtain ⟨-, hRead⟩ := rowHits_of_decode h
  cases i with
  | encode d => exact decide_eq_true hRead.2
  | sleep n | display p | tick | resume | encodeDp | frame | reset => rfl

/-- The row fixes the bits outside the operand and the operand is read from the rest, so the word
has no other bits (R48, R50). -/
theorem encode_of_decode {w : EventWord} {i : Instr} (h : decode w = .ok i) : encode i = w := by
  obtain ⟨hRow, hRead⟩ := rowHits_of_decode h
  apply BitVec.eq_of_toNat_eq
  cases i with
  | sleep n =>
    have hw : w.toNat / 65536 = 1 := (rowHits_sleep w).mp hRow
    have hn : (encode (.sleep n)).toNat = 1 * 65536 + n.toNat := eventWord_toNat 0x1#4 n
    have hfield : n.toNat = w.toNat % 65536 := hRead
    omega
  | encode d =>
    have hw : w.toNat / 16 = 0x4000 := (rowHits_encode w).mp hRow
    obtain ⟨hfield, -⟩ : d.toNat = w.toNat % 16 ∧ d.toNat ≤ 9 := hRead
    rw [encode_encode_toNat]
    omega
  | display p =>
    have hw : w.toNat / 256 = 0x600 := (rowHits_display w).mp hRow
    have hfield : p.toNat = w.toNat % 256 := hRead
    rw [encode_display_toNat]
    omega
  | tick | resume | encodeDp | frame | reset => exact ((rowHits_full _ _ w).mp hRow).symm

/-- Settles O2, by the row of each operation and the operand read back from its word. -/
theorem decodeOfEncodeIsTheOperation : Obligations.DecodeOfEncodeIsTheOperation :=
  fun _ => decode_encode

/-- Settles O3: the decoder accepts a word only as the encoding of what it reads. -/
theorem encodeOfDecodeIsTheWord : Obligations.EncodeOfDecodeIsTheWord :=
  fun _ _ h => ⟨wellFormed_of_decode h, encode_of_decode h⟩

/-! ### The rows do not overlap (R50) -/

/-- Every row of the opcode map tests the whole field `op`. -/
theorem opField_of_rowHits {r : OpcodeRow} {w : EventWord} (hr : r ∈ opcodeTable)
    (h : rowHits r w = true) : opField w = opField r.pattern := by
  have hmask : ∀ r ∈ opcodeTable, opField r.mask = BitVec.allOnes 4 := by decide
  calc opField w
      = opField w &&& opField r.mask := by rw [hmask r hr, BitVec.and_allOnes]
    _ = opField (w &&& r.mask) := BitVec.extractLsb'_and.symm
    _ = opField r.pattern := by rw [(rowHits_iff r w).mp h]

/-- Two rows of the opcode map with the same `op` are one row. -/
theorem opcodeRow_eq_of_opField :
    ∀ r ∈ opcodeTable, ∀ q ∈ opcodeTable, opField r.pattern = opField q.pattern → r = q := by
  decide

/-- Settles O6: a word has one `op`, and each row has its own. -/
theorem opcodeRowsNeverOverlap : Obligations.OpcodeRowsNeverOverlap := by
  intro w r q hr hq hrw hqw
  have hop : opField r.pattern = opField q.pattern :=
    (opField_of_rowHits hr hrw).symm.trans (opField_of_rowHits hq hqw)
  exact opcodeRow_eq_of_opField r hr q hq hop

/-! ### The refused words (R56) -/

/-- The number `w` is the word of an operation: of one of the five rows without an operand, or of
a row whose operand is in range. -/
def SpellsOperation (w : Nat) : Prop :=
  w / 65536 = 1 ∨ (w / 16 = 0x4000 ∧ w % 16 ≤ 9) ∨ w / 256 = 0x600 ∨
    w = 0x20000 ∨ w = 0x30000 ∨ w = 0x50000 ∨ w = 0x70000 ∨ w = 0xF0000

/-- A word is refused when it spells no operation, under the name its `op` gives. -/
theorem decode_eq_error_iff (w : EventWord) (why : Reject) :
    decode w = .error why ↔ ¬ SpellsOperation w.toNat ∧ rejectOf w = why := by
  rw [decode_toNat]
  unfold SpellsOperation
  split_ifs <;> simp [*]

/-- The values of `op` whose refused words go under each name. -/
def RefusesOp (op : Nat) : Reject → Prop
  | .reservedOp => op = 0 ∨ (8 ≤ op ∧ op ≤ 14)
  | .operandNotZero => ¬ (op = 0 ∨ (8 ≤ op ∧ op ≤ 14) ∨ op = 4 ∨ op = 6)
  | .digitOutOfRange => op = 4
  | .patternTooWide => op = 6

theorem rejectOf_eq_iff (w : EventWord) (why : Reject) :
    rejectOf w = why ↔ RefusesOp (w.toNat / 65536) why := by
  simp only [rejectOf, opField_toNat]
  cases why <;> simp only [RefusesOp] <;> split_ifs <;> simp <;> omega

/-- A refused word ends the step under its reason (log 4). -/
theorem step_invalid_word {s : State} {w : EventWord} {rest : List Input} {why : Reject}
    (hs : s.inputs = .word w :: rest) (hw : decode w = .error why) :
    step s = .refused (.invalidWord why) := by
  simp only [step, fetch, hs, hw]

/-- Settles O5, item by item: the words of an `op` that spell no operation are those of the item. -/
theorem refusedWordsAreTheFourItems : Obligations.RefusedWordsAreTheFourItems := by
  intro w
  have hw := w.isLt
  refine ⟨?_, ?_, ?_, ?_, fun s rest why => step_invalid_word⟩
  all_goals rw [decode_eq_error_iff, rejectOf_eq_iff, RefusesOp, SpellsOperation]; omega

/-- Settles O1: nine of the words are encodings, and four evaluate to their refusals. -/
theorem sampleEventWordsDecode : Obligations.SampleEventWordsDecode :=
  ⟨decode_encode (i := .sleep 100) rfl, decode_encode (i := .sleep 0) rfl,
    decode_encode (i := .tick) rfl, decode_encode (i := .resume) rfl,
    decode_encode (i := .encode 9) rfl, decode_encode (i := .encodeDp) rfl,
    decode_encode (i := .display 0x6F) rfl, decode_encode (i := .frame) rfl,
    decode_encode (i := .reset) rfl, rfl, rfl, rfl, rfl⟩

/-! ### A digit above 9 (R81, R106) -/

theorem romRead_above {m : Memory} {a : Nat} (h : 10 ≤ a) : romRead m a = none := by
  rw [← Option.isNone_iff_eq_none, ← Option.not_isSome, romRead_isSome]
  simp [h]

theorem exec_encode_above {d : Digit} (s : State) (h : 10 ≤ d.toNat) :
    exec (.encode d) s = .refused .digitOutOfRange := by
  simp only [exec, execEncode, romRead_above h]

/-- Settles O34: the decoder reads well-formed operations only, and the ROM has ten addresses. -/
theorem encodeTermAboveNineIsRefused : Obligations.EncodeTermAboveNineIsRefused := by
  intro d s hd
  refine ⟨fun w hw => ?_, exec_encode_above s hd⟩
  have hle : d.toNat ≤ 9 := of_decide_eq_true (wellFormed_of_decode hw)
  omega

end Sys2Proof.Machine
end

section
/-! SUPPORT. What an operation writes, said once (10_state.md section 5, 60_exceptions.md R117):
each operation's next state is its state before with the named fields changed; and what the
operation does to the control state and the countdown, as one function of the two. -/

namespace Sys2Proof.Machine

open Sys2Proof.Config

/-! ### Which fields an operation writes -/

theorem State.eq_of_fields {s t : State} (hfsm : s.fsm = t.fsm) (hblink : s.blinkCnt = t.blinkCnt)
    (hsleep : s.sleepCnt = t.sleepCnt) (hled : s.led = t.led) (herr : s.err = t.err)
    (hframe : s.frame = t.frame) (hdata : s.srData = t.srData) (hclk : s.srClk = t.srClk)
    (hoe : s.srOe = t.srOe) (hsel : s.digitSel = t.digitSel) (hat : s.callerAt = t.callerAt)
    (hrom : s.rom = t.rom) (hparams : s.params = t.params) (hout : s.out = t.out)
    (htrace : s.trace = t.trace) (hclr : s.nClr = t.nClr) (htoggle : s.nToggle = t.nToggle)
    (hinputs : s.inputs = t.inputs) (hdraws : s.draws = t.draws) : s = t := by
  cases s; cases t; simp_all only

/-- `s` with the fields that `i` may write as they are in `t`: its rows of the access matrix, the
lines, the model's position of the caller, and the outputs of the step. -/
def written (i : Instr) (s t : State) : State :=
  match i with
  | .sleep _ | .resume =>
    { s with fsm := t.fsm, sleepCnt := t.sleepCnt, err := t.err, out := t.out, nClr := t.nClr }
  | .tick =>
    { s with fsm := t.fsm, sleepCnt := t.sleepCnt, blinkCnt := t.blinkCnt, led := t.led
             out := t.out, nToggle := t.nToggle }
  | .encode _ | .encodeDp => { s with out := t.out }
  | .display _ =>
    { s with srData := t.srData, srClk := t.srClk, srOe := t.srOe, trace := t.trace, out := t.out }
  | .frame =>
    { s with fsm := t.fsm, sleepCnt := t.sleepCnt, frame := t.frame, srData := t.srData
             srClk := t.srClk, srOe := t.srOe, trace := t.trace, out := t.out, nClr := t.nClr }
  | .reset =>
    { s with fsm := t.fsm, sleepCnt := t.sleepCnt, blinkCnt := t.blinkCnt, led := t.led
             err := t.err, frame := t.frame, callerAt := t.callerAt, out := t.out
             nClr := t.nClr }

theorem requestSleep_eq_written (n : Ticks) (s : State) :
    s.quiet.requestSleep n = written (.sleep n) s (s.quiet.requestSleep n) := by
  unfold written State.requestSleep; split <;> rfl

theorem completeSleep_eq_written (s : State) :
    s.quiet.completeSleep = written .resume s s.quiet.completeSleep := by
  unfold written State.completeSleep; split <;> rfl

theorem handleTick_eq_written (s : State) :
    s.quiet.handleTick = written .tick s s.quiet.handleTick := by
  apply State.eq_of_fields <;> simp [written, State.handleTick]

theorem driveDisplay_eq_written (p : Pattern) (s : State) :
    s.quiet.driveDisplay p = written (.display p) s (s.quiet.driveDisplay p) := by
  apply State.eq_of_fields <;> simp [written]

theorem runFrame_eq_written {s : State} (h : s.fsm = .idle) :
    s.quiet.runFrame = written .frame s s.quiet.runFrame := by
  rw [State.runFrame_eq (s := s.quiet) h]
  apply State.eq_of_fields <;> simp [written]

theorem exec_eq_written {i : Instr} {s t : State} (h : exec i s = .next t) : t = written i s t := by
  obtain ⟨n, rfl, rfl⟩ | ⟨rfl, rfl⟩ | ⟨rfl, rfl⟩ | ⟨d, p, rfl, -, rfl⟩ | ⟨rfl, rfl⟩ |
    ⟨p, rfl, rfl⟩ | ⟨rfl, hf, rfl⟩ | ⟨rfl, rfl⟩ := exec_next_cases h
  · exact requestSleep_eq_written n s
  · exact handleTick_eq_written s
  · exact completeSleep_eq_written s
  · rfl
  · rfl
  · exact driveDisplay_eq_written p s
  · exact runFrame_eq_written hf
  · rfl

/-! ### Field by field: which operation may write it -/

section
variable {i : Instr} {s t : State} (h : exec i s = .next t)
include h

theorem exec_field {α : Type} (f : State → α) : f t = f (written i s t) :=
  congrArg f (exec_eq_written h)

/-- No operation writes what the block is given before the run, nor the model's bookkeeping. -/
theorem exec_setup :
    t.rom = s.rom ∧ t.params = s.params ∧ t.digitSel = s.digitSel ∧ t.inputs = s.inputs ∧
      t.draws = s.draws := by
  cases i <;> exact ⟨exec_field h State.rom, exec_field h State.params, exec_field h State.digitSel,
    exec_field h State.inputs, exec_field h State.draws⟩

theorem exec_rom : t.rom = s.rom := by
  obtain ⟨hrom, -⟩ := exec_setup h
  exact hrom

theorem exec_params : t.params = s.params := by
  obtain ⟨-, hparams, -⟩ := exec_setup h
  exact hparams

theorem exec_digitSel : t.digitSel = s.digitSel := by
  obtain ⟨-, -, hsel, -⟩ := exec_setup h
  exact hsel

theorem exec_sameBlink (htick : i ≠ .tick) (hreset : i ≠ .reset) : SameBlink s t := by
  cases i with
  | tick => exact absurd rfl htick
  | reset => exact absurd rfl hreset
  | sleep n | resume | encode d | encodeDp | display p | frame =>
    exact ⟨exec_field h State.blinkCnt, exec_field h State.led⟩

theorem exec_sameLines (hdisplay : ∀ p, i ≠ .display p) (hframe : i ≠ .frame) : SameLines s t := by
  cases i with
  | display p => exact absurd rfl (hdisplay p)
  | frame => exact absurd rfl hframe
  | sleep n | resume | encode d | encodeDp | tick | reset =>
    exact ⟨exec_field h State.srData, exec_field h State.srClk, exec_field h State.srOe,
      exec_field h State.trace⟩

theorem exec_err (hsleep : ∀ n, i ≠ .sleep n) (hresume : i ≠ .resume) (hreset : i ≠ .reset) :
    t.err = s.err := by
  cases i with
  | sleep n => exact absurd rfl (hsleep n)
  | resume => exact absurd rfl hresume
  | reset => exact absurd rfl hreset
  | tick | encode d | encodeDp | display p | frame => exact exec_field h State.err

theorem exec_frame (hframe : i ≠ .frame) (hreset : i ≠ .reset) : t.frame = s.frame := by
  cases i with
  | frame => exact absurd rfl hframe
  | reset => exact absurd rfl hreset
  | sleep n | resume | tick | encode d | encodeDp | display p => exact exec_field h State.frame

theorem exec_callerAt (hreset : i ≠ .reset) : t.callerAt = s.callerAt := by
  cases i with
  | reset => exact absurd rfl hreset
  | sleep n | resume | tick | encode d | encodeDp | display p | frame =>
    exact exec_field h State.callerAt

end

/-! ### The control state and the countdown (R72) -/

/-- What an operation makes of `fsm` and `sleep_cnt`: the transition table of R72. -/
def timerAfter (i : Instr) (f : Fsm) (c : Ticks) : Fsm × Ticks :=
  match i with
  | .sleep n => if n ≠ 0#16 ∧ f = .idle then (.countingDown, n) else (f, c)
  | .tick =>
    if f = .countingDown then (if c = 1#16 then .requestWake else .countingDown, c - 1#16)
    else (f, c)
  | .resume => if f = .requestWake then (.idle, c) else (f, c)
  | .encode _ | .encodeDp | .display _ => (f, c)
  | .frame => if f = .idle then (.countingDown, 100#16) else (f, c)
  | .reset => (.idle, 0#16)

/-- Every operation moves the two as the table says, whatever else the state holds. -/
theorem exec_timer {i : Instr} {s t : State} (h : exec i s = .next t) :
    (t.fsm, t.sleepCnt) = timerAfter i s.fsm s.sleepCnt := by
  cases i with
  | sleep n =>
    simp only [timerAfter]
    split
    · next ha =>
      obtain rfl := Host.Outcome.next.inj ((exec_sleep_accepted ha.1 ha.2).symm.trans h)
      rfl
    · next ha =>
      obtain rfl := Host.Outcome.next.inj ((exec_sleep_rejected (by tauto)).symm.trans h)
      rfl
  | tick =>
    obtain rfl := Host.Outcome.next.inj h
    simp only [timerAfter]
    split
    · next hf =>
      exact Prod.ext (State.handleTick_fsm_counting (s := s.quiet) hf)
        (State.handleTick_sleepCnt_counting (s := s.quiet) hf)
    · next hf =>
      have hsame : SameTimer s s.quiet.handleTick := State.handleTick_sameTimer hf
      exact Prod.ext hsame.fsm hsame.sleepCnt
  | resume =>
    simp only [timerAfter]
    split
    · next hf =>
      obtain rfl := Host.Outcome.next.inj ((exec_resume_accepted hf).symm.trans h)
      rfl
    · next hf =>
      obtain rfl := Host.Outcome.next.inj ((exec_resume_rejected hf).symm.trans h)
      rfl
  | encode d | encodeDp | display p =>
    have hsame : SameTimer s t := fsmTransitionTable _ s t h
    exact Prod.ext hsame.fsm hsame.sleepCnt
  | frame =>
    obtain ⟨hf, ht, hc⟩ := fsmTransitionTable _ s t h
    exact (Prod.ext ht hc).trans (if_pos hf).symm
  | reset =>
    obtain rfl := Host.Outcome.next.inj h
    rfl

end Sys2Proof.Machine
end

section
/-! SUPPORT. What one operation may change and what a whole run keeps: the access matrix
(10_state.md section 5), the independence of the two duties (40_timer_scheduler.md section 6), the
sticky bits, the sleep in flight, the LEDs as a pair. -/

namespace Sys2Proof.Machine

open Sys2Proof.Config

/-! ### `fsm` and `sleep_cnt` (R72) -/

theorem exec_fsm {i : Instr} {s t : State} (h : exec i s = .next t) :
    t.fsm = (timerAfter i s.fsm s.sleepCnt).1 := congrArg Prod.fst (exec_timer h)

theorem exec_sleepCnt {i : Instr} {s t : State} (h : exec i s = .next t) :
    t.sleepCnt = (timerAfter i s.fsm s.sleepCnt).2 := congrArg Prod.snd (exec_timer h)

/-- An operation that leaves the pair as it is. -/
theorem exec_sameTimer {i : Instr} {s t : State} (h : exec i s = .next t)
    (hkept : timerAfter i s.fsm s.sleepCnt = (s.fsm, s.sleepCnt)) : SameTimer s t :=
  ⟨(exec_fsm h).trans (congrArg Prod.fst hkept), (exec_sleepCnt h).trans (congrArg Prod.snd hkept)⟩

/-- FRAME completes in IDLE only (R91). -/
theorem fsm_idle_of_exec_frame {s t : State} (h : exec .frame s = .next t) : s.fsm = .idle := by
  obtain ⟨hf, -⟩ := fsmTransitionTable .frame s t h
  exact hf

/-- What can move the pair: the rows of R72 that are not "unchanged". -/
theorem timerAfter_cases (i : Instr) (f : Fsm) (c : Ticks) :
    timerAfter i f c = (f, c) ∨ (∃ n, i = .sleep n ∧ n ≠ 0#16 ∧ f = .idle) ∨
      (i = .tick ∧ f = .countingDown) ∨ (i = .resume ∧ f = .requestWake) ∨ i = .frame ∨
      i = .reset := by
  cases i with
  | sleep n =>
    by_cases ha : n ≠ 0#16 ∧ f = .idle
    · exact .inr (.inl ⟨n, rfl, ha⟩)
    · exact .inl (if_neg ha)
  | tick =>
    by_cases hf : f = .countingDown
    · exact .inr (.inr (.inl ⟨rfl, hf⟩))
    · exact .inl (if_neg hf)
  | resume =>
    by_cases hf : f = .requestWake
    · exact .inr (.inr (.inr (.inl ⟨rfl, hf⟩)))
    · exact .inl (if_neg hf)
  | encode d | encodeDp | display p => exact .inl rfl
  | frame => simp
  | reset => simp

theorem timerAfter_tick (c : Ticks) :
    timerAfter .tick .countingDown c =
      (if c = 1#16 then .requestWake else .countingDown, c - 1#16) := rfl

/-- Only an accepted SLEEP and FRAME enter COUNTING_DOWN (R72). -/
theorem startsSleep_of_enters_countingDown {i : Instr} {s t : State} (h : exec i s = .next t)
    (hs : s.fsm ≠ .countingDown) (ht : t.fsm = .countingDown) :
    (∃ n, i = .sleep n ∧ n ≠ 0#16 ∧ s.fsm = .idle) ∨ i = .frame := by
  have hfsm := exec_fsm h
  obtain hkept | hsleep | ⟨-, hf⟩ | ⟨rfl, hf⟩ | hframe | rfl :=
    timerAfter_cases i s.fsm s.sleepCnt
  · exact absurd (hfsm.symm.trans ht) (by rwa [hkept])
  · exact .inl hsleep
  · exact absurd hf hs
  · simp [ht, hf, timerAfter] at hfsm
  · exact .inr hframe
  · simp [ht, timerAfter] at hfsm

/-- RESET leaves no sleep in flight, and every other operation leaves COUNTING_DOWN only by the TICK
that counts the last one (R72). -/
theorem tick_or_reset_of_leaves_countingDown {i : Instr} {s t : State} (h : exec i s = .next t)
    (hs : s.fsm = .countingDown) (ht : t.fsm ≠ .countingDown) :
    (i = .tick ∧ s.sleepCnt = 1#16) ∨ i = .reset := by
  by_cases hi : i = .reset
  · exact .inr hi
  · exact .inl (tick_of_leaves_countingDown hi h hs ht)

/-- Settles O24, operation by operation: the table of R72 reads `fsm` and `sleep_cnt` alone. -/
theorem countdownIgnoresTheBlinkState : Obligations.CountdownIgnoresTheBlinkState := by
  intro is
  induction is with
  | nil =>
    intro s s' t t' hsame h h'
    obtain rfl := Host.Outcome.next.inj h
    obtain rfl := Host.Outcome.next.inj h'
    exact hsame
  | cons i is ih =>
    intro s s' t t' hsame h h'
    obtain ⟨u, hu, hrest⟩ := execAll_cons_next h
    obtain ⟨u', hu', hrest'⟩ := execAll_cons_next h'
    have htimer : (u'.fsm, u'.sleepCnt) = (u.fsm, u.sleepCnt) := by
      rw [exec_timer hu', exec_timer hu, hsame.fsm, hsame.sleepCnt]
    exact ih u u' t t' ⟨congrArg Prod.fst htimer, congrArg Prod.snd htimer⟩ hrest hrest'

/-! ### `led` (R68) -/

/-- The LEDs are inverted by a TICK at the wrap, set by RESET, and written by nothing else. -/
theorem exec_led_cases {i : Instr} {s t : State} (h : exec i s = .next t) :
    t.led = s.led ∨ (i = .tick ∧ s.blinkCnt = 31#5 ∧ t.led = s.led ^^^ 0b11#2) ∨
      (i = .reset ∧ t.led = s.params.ledReset) := by
  by_cases htick : i = .tick
  · subst htick
    obtain rfl := Host.Outcome.next.inj h
    have hled := s.quiet.handleTick_led
    by_cases hb : s.blinkCnt = 31#5
    · exact .inr (.inl ⟨rfl, hb, hled.trans (if_pos hb)⟩)
    · exact .inl (hled.trans (if_neg hb))
  · by_cases hreset : i = .reset
    · subst hreset
      obtain rfl := Host.Outcome.next.inj h
      exact .inr (.inr ⟨rfl, rfl⟩)
    · exact .inl (exec_sameBlink h htick hreset).led

/-! ### The access matrix -/

/-- Settles O22: each clause is what the operations outside its list leave alone. -/
theorem operationsWriteOnlyTheirRegisters : Obligations.OperationsWriteOnlyTheirRegisters := by
  intro i s t h
  have hlines (hne : ¬ SameLines s t) : (∃ p, i = .display p) ∨ i = .frame :=
    by_contra fun hno => hne <|
      exec_sameLines h (fun p hp => hno (.inl ⟨p, hp⟩)) fun hf => hno (.inr hf)
  refine ⟨fun hne => ?_, fun hne => ?_, fun hne => ?_, fun hne => ?_, fun hne => ?_,
    fun hne => ?_, fun hne => hlines fun hl => hne hl.trace,
    fun hne => hlines fun hl => hne hl.srData, fun hne => hlines fun hl => hne hl.srClk,
    fun hne => hlines fun hl => hne hl.srOe,
    exec_digitSel h, fun hne => by_contra fun hi => hne (exec_callerAt h hi)⟩
  · obtain hkept | hsleep | ⟨rfl, hf⟩ | hresume | hframe | hreset :=
      timerAfter_cases i s.fsm s.sleepCnt
    · exact absurd ((exec_fsm h).trans (congrArg Prod.fst hkept)) hne
    · exact .inl hsleep
    · obtain ⟨-, hlast⟩ := tick_of_leaves_countingDown (i := .tick) nofun h hf (hf ▸ hne)
      exact .inr (.inl ⟨rfl, hf, hlast⟩)
    · exact .inr (.inr (.inl hresume))
    · exact .inr (.inr (.inr (.inl hframe)))
    · exact .inr (.inr (.inr (.inr hreset)))
  · by_contra! hno
    obtain ⟨htick, hreset⟩ := hno
    exact hne (exec_sameBlink h htick hreset).blinkCnt
  · obtain hkept | ⟨htick, hb, -⟩ | ⟨hreset, -⟩ := exec_led_cases h
    · exact absurd hkept hne
    · exact .inl ⟨htick, hb⟩
    · exact .inr hreset
  · obtain hkept | hsleep | htick | ⟨rfl, hf⟩ | hframe | hreset :=
      timerAfter_cases i s.fsm s.sleepCnt
    · exact absurd ((exec_sleepCnt h).trans (congrArg Prod.snd hkept)) hne
    · exact .inl hsleep
    · exact .inr (.inl htick)
    · exact absurd ((exec_sleepCnt h).trans (by simp [timerAfter, hf])) hne
    · exact .inr (.inr (.inl hframe))
    · exact .inr (.inr (.inr hreset))
  · by_contra! hno
    obtain ⟨hsleep, hresume, hreset⟩ := hno
    exact hne (exec_err h hsleep hresume hreset)
  · by_contra! hno
    obtain ⟨hframe, hreset⟩ := hno
    exact hne (exec_frame h hframe hreset)

/-! ### Low power (R121) -/

theorem State.power_lowPower_iff (s : State) : s.power = .lowPower ↔ s.fsm = .countingDown := by
  rw [← s.lpm_iff, State.power]; split <;> simp_all

theorem State.power_active_iff (s : State) : s.power = .active ↔ s.fsm ≠ .countingDown := by
  rw [Ne, ← s.lpm_iff, State.power]; split <;> simp_all

/-- Settles O27: low power is COUNTING_DOWN, which is entered and left as the table of R72 says. -/
theorem lowPowerIsEnteredAndLeftAsStated : Obligations.LowPowerIsEnteredAndLeftAsStated := by
  intro i s t h
  rw [State.power_lowPower_iff, State.power_lowPower_iff, State.power_active_iff,
    State.power_active_iff]
  exact ⟨Iff.rfl, startsSleep_of_enters_countingDown h, tick_or_reset_of_leaves_countingDown h⟩

/-! ### What a whole run keeps -/

/-- A property that each operation of a run keeps is kept by the run. -/
theorem execAll_keeps {P : State → Prop} {is : List Instr}
    (hkeep : ∀ i ∈ is, ∀ s t : State, exec i s = .next t → P s → P t) {s t : State}
    (h : execAll is s = .next t) (hs : P s) : P t := by
  induction is generalizing s with
  | nil => exact Host.Outcome.next.inj h ▸ hs
  | cons i is ih =>
    obtain ⟨u, hu, hrest⟩ := execAll_cons_next h
    exact ih (fun j hj => hkeep j (List.mem_cons_of_mem i hj)) hrest
      (hkeep i List.mem_cons_self s u hu hs)

/-- Settles O25: each operation but RESET keeps a set bit. -/
theorem errBitsStayUntilReset : Obligations.ErrBitsStayUntilReset := by
  intro is s t hreset h b hb
  exact execAll_keeps (P := fun u => u.err.getLsbD b = true)
    (fun i hi _ _ hx => err_bit_kept (fun hr => hreset (hr ▸ hi)) hx) h hb

/-- The difference of the two LEDs. -/
def ledDiff (l : LedPair) : Bool := l.getLsbD 1 ^^ l.getLsbD 0

theorem ledDiff_inverted (l : LedPair) : ledDiff (l ^^^ 0b11#2) = ledDiff l := by
  revert l; decide

/-- An operation leaves the difference of the LEDs or makes it that of LED_RESET. -/
theorem exec_ledDiff {i : Instr} {s t : State} (h : exec i s = .next t)
    (hs : ledDiff s.led = ledDiff s.params.ledReset) :
    ledDiff t.led = ledDiff t.params.ledReset := by
  rw [exec_params h]
  obtain hled | ⟨-, -, hled⟩ | ⟨-, hled⟩ := exec_led_cases h
  · rw [hled, hs]
  · rw [hled, ledDiff_inverted, hs]
  · rw [hled]

/-- Settles O54: every operation keeps the difference, and the parameters. -/
theorem ledsStayAPair : Obligations.LedsStayAPair := by
  intro is s t hs h
  have hkept : ledDiff t.led = ledDiff t.params.ledReset ∧ t.params = s.params :=
    execAll_keeps
      (P := fun u => ledDiff u.led = ledDiff u.params.ledReset ∧ u.params = s.params)
      (fun _ _ _ _ hx hu => ⟨exec_ledDiff hx hu.1, (exec_params hx).trans hu.2⟩) h ⟨hs, rfl⟩
  exact hkept.2 ▸ hkept.1

/-! ### A sleep in flight (R93) -/

/-- In COUNTING_DOWN an operation other than TICK and RESET moves neither `fsm` nor `sleep_cnt`. -/
theorem exec_sameTimer_of_counting {i : Instr} {s t : State} (h : exec i s = .next t)
    (hf : s.fsm = .countingDown) (htick : i ≠ .tick) (hreset : i ≠ .reset) : SameTimer s t := by
  apply exec_sameTimer h
  cases i with
  | tick => exact absurd rfl htick
  | reset => exact absurd rfl hreset
  | sleep n | resume | frame => simp [timerAfter, hf]
  | encode d | encodeDp | display p => rfl

/-- In COUNTING_DOWN a TICK takes one off, and the last one requests the wake-up. -/
theorem exec_tick_counting {s t : State} (h : exec .tick s = .next t) (hf : s.fsm = .countingDown) :
    t.fsm = (if s.sleepCnt = 1#16 then .requestWake else .countingDown) ∧
      t.sleepCnt = s.sleepCnt - 1#16 := by
  have htimer := exec_timer h
  rw [hf, timerAfter_tick] at htimer
  exact ⟨congrArg Prod.fst htimer, congrArg Prod.snd htimer⟩

/-- Settles O26, along the run: a TICK takes one off, every other operation nothing. -/
theorem sleepInFlightCannotBeCancelled : Obligations.SleepInFlightCannotBeCancelled := by
  intro is
  induction is with
  | nil =>
    intro s t _ hf _ h
    obtain rfl := Host.Outcome.next.inj h
    exact ⟨hf, rfl⟩
  | cons i is ih =>
    intro s t hreset hf hlt h
    obtain ⟨u, hu, hrest⟩ := execAll_cons_next h
    obtain ⟨hi, his⟩ := List.ne_and_not_mem_of_not_mem_cons hreset
    by_cases htick : i = .tick
    · subst htick
      obtain ⟨hfu, hcu⟩ := exec_tick_counting hu hf
      rw [List.count_cons_self] at hlt
      have hne : s.sleepCnt ≠ 1#16 := fun h1 => by rw [h1] at hlt; simp at hlt
      have hcu' : u.sleepCnt.toNat = s.sleepCnt.toNat - 1 := by rw [hcu]; bv_omega
      obtain ⟨hft, hct⟩ := ih u t his (hfu.trans (if_neg hne)) (by omega) hrest
      exact ⟨hft, by rw [hct, hcu', List.count_cons_self]; omega⟩
    · have hsame := exec_sameTimer_of_counting hu hf htick (Ne.symm hi)
      rw [List.count_cons_of_ne htick] at hlt ⊢
      rw [← hsame.sleepCnt] at hlt ⊢
      exact ih u t his (hsame.fsm.trans hf) hlt hrest

/-! ### Accepted SLEEPs and RESUMEs alternate (R20, R73) -/

/-- Without RESET the block becomes busy by the start of a sleep, free by the end of one, and
otherwise stays as it is. -/
theorem exec_busy {i : Instr} {s t : State} (hi : i ≠ .reset) (h : exec i s = .next t) :
    (startsSleep i s).toNat + s.busy.toNat = (endsSleep i s).toNat + t.busy.toNat := by
  have hfsm := exec_fsm h
  cases i with
  | sleep n =>
    by_cases ha : n ≠ 0#16 ∧ s.fsm = .idle <;>
      simp [startsSleep, endsSleep, State.busy, hfsm, timerAfter, ha]
  | tick =>
    by_cases hf : s.fsm = .countingDown
    · by_cases h1 : s.sleepCnt = 1#16 <;>
        simp [startsSleep, endsSleep, State.busy, hfsm, timerAfter, hf, h1]
    · simp [startsSleep, endsSleep, State.busy, hfsm, timerAfter, hf]
  | resume =>
    by_cases hf : s.fsm = .requestWake <;>
      simp [startsSleep, endsSleep, State.busy, hfsm, timerAfter, hf]
  | encode d | encodeDp | display p =>
    simp [startsSleep, endsSleep, State.busy, hfsm, timerAfter]
  | frame =>
    have hf : s.fsm = .idle := fsm_idle_of_exec_frame h
    simp [startsSleep, endsSleep, State.busy, hfsm, timerAfter, hf]
  | reset => exact absurd rfl hi

/-- Without RESET the start of a sleep and the end of one are the pulses of `tmr_clr` (R20). -/
theorem exec_nClr {i : Instr} {s t : State} (hi : i ≠ .reset) (h : exec i s = .next t) :
    t.nClr = s.nClr + (startsSleep i s).toNat + (endsSleep i s).toNat := by
  obtain ⟨hclr, -, hcount, -⟩ := pulsesAreAssertedExactlyByTheirOperations i s t h
  rw [hcount, Nat.add_assoc]
  congr 1
  cases i with
  | frame =>
    have hf : s.fsm = .idle := fsm_idle_of_exec_frame h
    simp [startsSleep, endsSleep, hf, hclr]
  | reset => exact absurd rfl hi
  | sleep n =>
    by_cases hn : n = 0#16
    · simp [startsSleep, endsSleep, hclr, hn]
    · by_cases hf : s.fsm = .idle <;> simp [startsSleep, endsSleep, hclr, hn, hf]
  | resume => by_cases hf : s.fsm = .requestWake <;> simp [startsSleep, endsSleep, hclr, hf]
  | tick | encode d | encodeDp | display p => simp [startsSleep, endsSleep, hclr]

/-- Settles O29, along the run: the balance of each operation adds up. -/
theorem sleepsAndResumesAlternate : Obligations.SleepsAndResumesAlternate := by
  intro is
  induction is with
  | nil =>
    intro s t _ h
    obtain rfl := Host.Outcome.next.inj h
    exact ⟨rfl, rfl⟩
  | cons i is ih =>
    intro s t hreset h
    obtain ⟨u, hu, hrest⟩ := execAll_cons_next h
    obtain ⟨hi, his⟩ := List.ne_and_not_mem_of_not_mem_cons hreset
    obtain ⟨hbal, hclr⟩ := ih u t his hrest
    have hbal₁ := exec_busy (Ne.symm hi) hu
    have hclr₁ := exec_nClr (Ne.symm hi) hu
    rw [countAlong_cons_next hu, countAlong_cons_next hu]
    omega

/-! ### The blink duty alone (R68) -/

/-- The blink counter, the LEDs and the parameters they are reset from are the same. -/
structure SameBlinkAndParams (s t : State) : Prop extends SameBlink s t where
  params : t.params = s.params

theorem SameBlinkAndParams.trans {s t u : State} (h : SameBlinkAndParams s t)
    (h' : SameBlinkAndParams t u) : SameBlinkAndParams s u :=
  ⟨⟨h'.blinkCnt.trans h.blinkCnt, h'.led.trans h.led⟩, h'.params.trans h.params⟩

theorem SameBlinkAndParams.symm {s t : State} (h : SameBlinkAndParams s t) :
    SameBlinkAndParams t s :=
  ⟨⟨h.blinkCnt.symm, h.led.symm⟩, h.params.symm⟩

/-- Only TICK and RESET touch the blink duty. -/
theorem exec_sameBlinkAndParams {i : Instr} {s t : State} (h : exec i s = .next t)
    (hi : ¬ (i = .tick ∨ i = .reset)) : SameBlinkAndParams s t :=
  ⟨exec_sameBlink h (fun ht => hi (.inl ht)) fun hr => hi (.inr hr), exec_params h⟩

/-- TICK and RESET complete in every state and read nothing but the blink duty to write it. -/
theorem exec_tick_or_reset_blink {i : Instr} {s s' t : State} (hi : i = .tick ∨ i = .reset)
    (h : exec i s = .next t) (hsame : SameBlinkAndParams s s') :
    ∃ t', exec i s' = .next t' ∧ SameBlinkAndParams t t' := by
  obtain rfl | rfl := hi
  · obtain rfl := Host.Outcome.next.inj h
    refine ⟨_, rfl, ⟨?_, ?_⟩, ?_⟩
    · simp [hsame.blinkCnt]
    · have hcnt : s'.quiet.blinkCnt = s.quiet.blinkCnt := hsame.blinkCnt
      have hled : s'.quiet.led = s.quiet.led := hsame.led
      rw [State.handleTick_led, State.handleTick_led, hcnt, hled]
    · simp [State.handleTick, hsame.params]
  · obtain rfl := Host.Outcome.next.inj h
    exact ⟨_, rfl, ⟨rfl, congrArg Params.ledReset hsame.params⟩, hsame.params⟩

/-- A run does to the blink duty what its TICKs and RESETs alone do. -/
theorem execAll_filter_blink {is : List Instr} {s s' t : State} (h : execAll is s = .next t)
    (hsame : SameBlinkAndParams s s') :
    ∃ t', execAll (is.filter fun i => i = .tick ∨ i = .reset) s' = .next t' ∧
      SameBlinkAndParams t t' := by
  induction is generalizing s s' with
  | nil =>
    obtain rfl := Host.Outcome.next.inj h
    exact ⟨s', rfl, hsame⟩
  | cons i is ih =>
    obtain ⟨u, hu, hrest⟩ := execAll_cons_next h
    by_cases hi : i = .tick ∨ i = .reset
    · obtain ⟨u', hu', hsame'⟩ := exec_tick_or_reset_blink hi hu hsame
      obtain ⟨t', ht', hsame''⟩ := ih hrest hsame'
      refine ⟨t', ?_, hsame''⟩
      rw [List.filter_cons_of_pos (by simpa using hi)]
      simp only [execAll, hu', ht']
    · rw [List.filter_cons_of_neg (by simpa using hi)]
      exact ih hrest ((exec_sameBlinkAndParams hu hi).symm.trans hsame)

/-- Settles O23: both runs do to the blink duty what the one list of TICKs and RESETs does. -/
theorem blinkDutyIgnoresEverythingButTicks : Obligations.BlinkDutyIgnoresEverythingButTicks := by
  intro is js s s' t t' hfilter hblink hparams h h'
  have hsame : SameBlinkAndParams s s' := ⟨hblink, hparams⟩
  obtain ⟨u, hu, ht⟩ := execAll_filter_blink h hsame
  obtain ⟨u', hu', ht'⟩ := execAll_filter_blink h' ⟨⟨rfl, rfl⟩, rfl⟩
  rw [hfilter] at hu
  obtain rfl := Host.Outcome.next.inj (hu.symm.trans hu')
  exact (ht.trans ht'.symm).toSameBlink

end Sys2Proof.Machine
end

section
/-! SUPPORT. Whole steps, by the kind of the event (70_reset_and_hazards.md R148, log 1): the word,
the boot action, the moment of the signal interface (60_exceptions.md R109). -/

namespace Sys2Proof.Machine

open Sys2Proof.Config

/-! ### A step by the kind of its event -/

theorem step_word {s : State} {w : EventWord} {rest : List Input} {i : Instr}
    (hs : s.inputs = .word w :: rest) (hw : decode w = .ok i) :
    step s = exec i { s with inputs := rest } := by
  simp only [step, fetch, hs, hw, withSeg]

theorem step_boot {s : State} {rest : List Input} (hs : s.inputs = .boot :: rest) :
    step s = .next (State.performBoot { s with inputs := rest }) := by
  simp only [step, fetch, hs]

theorem step_pins {s t : State} {p : Pins} {rest : List Input} {i : Instr}
    (hs : s.inputs = .pins p :: rest) (hp : firstOp p = some i)
    (h : exec i (s.takePins p rest) = .next t) :
    step s = .next (t.showSeg (segOutput p s)) := by
  simp only [step, fetch, hs, hp, withSeg, h]

theorem step_pins_none {s : State} {p : Pins} {rest : List Input}
    (hs : s.inputs = .pins p :: rest) (hp : firstOp p = none) :
    step s = .next ((s.takePins p rest).quiet.showSeg (segOutput p s)) := by
  simp only [step, fetch, hs, hp]

/-- Settles O7: the queue of events is taken from, and nothing else is done around `exec`. -/
theorem stepPerformsTheDecodedWord : Obligations.StepPerformsTheDecodedWord :=
  fun _ _ _ _ => step_word

/-- Settles O8: an empty queue is the fault of that name. -/
theorem stepWithoutEventIsStuck : Obligations.StepWithoutEventIsStuck := by
  intro s hs
  simp only [step, fetch, hs]

/-- Settles O11: the boot action writes the digit select and the caller's position, and `digit_sel`
is in no operation's row. -/
theorem digitSelectIsAssertedAtBootOnly : Obligations.DigitSelectIsAssertedAtBootOnly :=
  ⟨fun _ _ hs => ⟨_, step_boot hs, rfl, rfl, rfl, ⟨rfl, rfl⟩, ⟨rfl, rfl⟩, rfl, rfl,
    ⟨rfl, rfl, rfl, rfl⟩, ⟨rfl, rfl, rfl, rfl⟩⟩, fun _ _ _ => exec_digitSel⟩

/-! ### Completion (R93, R106) -/

/-- Only ENCODE's digit and FRAME's state can stop an operation. -/
theorem exec_completes {i : Instr} (hi : i.WellFormed) {s : State}
    (hframe : i = .frame → s.fsm = .idle) : ∃ t, exec i s = .next t := by
  cases i with
  | encode d =>
    have hd : d.toNat < 10 := Nat.lt_succ_of_le (of_decide_eq_true hi)
    exact ⟨_, exec_encode_of_romRead (romRead_entry s.rom ⟨d.toNat, hd⟩)⟩
  | frame => exact ⟨_, exec_frame_idle (hframe rfl)⟩
  | sleep n | tick | resume | encodeDp | display p | reset => exact ⟨_, rfl⟩

theorem wellFormed_of_callerMay {i : Instr} {s : State} (h : callerMay i s = true) :
    i.WellFormed := by
  cases i with
  | encode d => exact decide_eq_true (of_decide_eq_true h).2
  | sleep n | tick | resume | encodeDp | display p | frame | reset => rfl

/-- Settles O56: the caller's duties ask for a digit in range, and for IDLE at FRAME. -/
theorem allowedOperationsComplete : Obligations.AllowedOperationsComplete := by
  refine fun i s => ⟨fun hmay => ?_, fun hi hne => exec_completes hi fun hf => absurd hf hne⟩
  refine exec_completes (wellFormed_of_callerMay hmay) fun hf => ?_
  subst hf
  exact of_decide_eq_true hmay

/-! ### The operations of one moment (R109) -/

/-- `rst`, `tick`, `resume` and `sleep_req` ask for operations that complete in every state. -/
theorem firstOp_completes {p : Pins} {i : Instr} (h : firstOp p = some i) (s : State) :
    ∃ t, exec i s = .next t := by
  unfold firstOp at h
  split_ifs at h <;> cases h <;> exact ⟨_, rfl⟩

/-- A moment's step shows the moment's `seg`, and draws a value for it where that is unspecified. -/
theorem step_pins_seg {s : State} {p : Pins} {rest : List Input} (hs : s.inputs = .pins p :: rest) :
    ∃ t, step s = .next t ∧ t.out.seg = some (segOutput p s) ∧
      t.draws = if segDraws p then s.draws + 1 else s.draws := by
  cases hp : firstOp p with
  | none => exact ⟨_, step_pins_none hs hp, rfl, rfl⟩
  | some i =>
    obtain ⟨u, hu⟩ := firstOp_completes hp (s.takePins p rest)
    obtain ⟨-, -, -, -, hdraws⟩ := exec_setup hu
    exact ⟨_, step_pins hs hp hu, rfl, hdraws⟩

/-- Settles O10, by the three cases of `dp_only` and `digit`. -/
theorem segSignalIsCombinational : Obligations.SegSignalIsCombinational := by
  intro p rest s hs
  obtain ⟨t, ht, hseg, hdraws⟩ := step_pins_seg hs
  refine ⟨t, ht, fun hdp => ⟨?_, ?_⟩, fun hdp d hd => ⟨?_, ?_⟩, fun hdp hd => ⟨?_, ?_⟩⟩
  · rw [hseg, segOutput_of_dpOnly s hdp]
  · rw [hdraws, if_neg (by simp [segDraws, hdp])]
  · rw [hseg, segOutput_of_romRead hdp (hd ▸ romRead_entry s.rom d)]
  · rw [hdraws, if_neg (by simp [segDraws, hdp]; omega)]
  · rw [hseg]
    simp [segOutput, hdp, romRead_above hd]
  · rw [hdraws, if_pos (by simp [segDraws, hdp]; omega)]

/-! ### A moment is the sequence of its operations (R109) -/

/-- The operations of a moment, in the order of R109. -/
def momentOps (p : Pins) : List Instr :=
  if p.rst then [Instr.reset]
  else (if p.tick then [Instr.tick] else []) ++ (if p.resume then [Instr.resume] else []) ++
    (if p.sleepReq then [Instr.sleep p.sleepMs] else [])

theorem firstOp_eq (p : Pins) : firstOp p = (momentOps p).head? := by
  obtain ⟨rst, tick, resume, sleepReq, ms, dp, d⟩ := p
  cases rst <;> cases tick <;> cases resume <;> cases sleepReq <;> rfl

/-- What is left of a moment after its first operation asks for the others, in order. -/
theorem momentOps_afterFirst (p : Pins) : momentOps (afterFirst p) = (momentOps p).tail := by
  obtain ⟨rst, tick, resume, sleepReq, ms, dp, d⟩ := p
  cases rst <;> cases tick <;> cases resume <;> cases sleepReq <;> rfl

theorem leftover_eq (p : Pins) :
    leftover p = if (momentOps p).tail = [] then [] else [.pins (afterFirst p)] := by
  rw [leftover, firstOp_eq, momentOps_afterFirst]
  cases (momentOps p).tail <;> rfl

/-- The state without the events to come and the draws. -/
def State.withoutQueue (s : State) : State := { s with inputs := [], draws := 0 }

/-- The state without those and without the outputs of the latest step. -/
def State.block (s : State) : State := s.quiet.withoutQueue

theorem State.quiet_block (s : State) : s.quiet.block = s.block := rfl

theorem State.showSeg_block (s : State) (p : Pattern) : (s.showSeg p).block = s.block := rfl

theorem State.takePins_block (s : State) (p : Pins) (rest : List Input) :
    (s.takePins p rest).block = s.block := rfl

/-- States of the same block agree in every register, the lines, the caller and the counts. -/
theorem frame_of_block_eq {u t : State} (h : t.block = u.block) :
    SameTimer u t ∧ SameBlink u t ∧ t.err = u.err ∧ t.frame = u.frame ∧ SameLines u t ∧
      t.callerAt = u.callerAt ∧ t.nClr = u.nClr ∧ t.nToggle = u.nToggle := by
  have hfield {α : Type} (f : State → α) : f t.block = f u.block := congrArg f h
  exact ⟨⟨hfield State.fsm, hfield State.sleepCnt⟩, ⟨hfield State.blinkCnt, hfield State.led⟩,
    hfield State.err, hfield State.frame,
    ⟨hfield State.srData, hfield State.srClk, hfield State.srOe, hfield State.trace⟩,
    hfield State.callerAt, hfield State.nClr, hfield State.nToggle⟩

theorem State.requestSleep_withoutQueue (n : Ticks) (s : State) :
    s.withoutQueue.requestSleep n = (s.requestSleep n).withoutQueue := by
  by_cases h : n ≠ 0#16 ∧ s.fsm = .idle
  · rw [State.requestSleep_accepted h.1 h.2,
      State.requestSleep_accepted (s := s.withoutQueue) h.1 h.2]; rfl
  · have hrej : n = 0#16 ∨ s.fsm ≠ .idle := by tauto
    rw [State.requestSleep_rejected hrej, State.requestSleep_rejected (s := s.withoutQueue) hrej]
    rfl

theorem State.completeSleep_withoutQueue (s : State) :
    s.withoutQueue.completeSleep = s.completeSleep.withoutQueue := by
  by_cases h : s.fsm = .requestWake
  · rw [State.completeSleep_accepted h, State.completeSleep_accepted (s := s.withoutQueue) h]; rfl
  · rw [State.completeSleep_rejected h, State.completeSleep_rejected (s := s.withoutQueue) h]; rfl

theorem State.blinkStep_withoutQueue (s : State) :
    s.withoutQueue.blinkStep = s.blinkStep.withoutQueue := by
  by_cases h : s.blinkCnt = 31#5
  · rw [State.blinkStep_wrap h, State.blinkStep_wrap (s := s.withoutQueue) h]; rfl
  · rw [State.blinkStep_count h, State.blinkStep_count (s := s.withoutQueue) h]; rfl

theorem State.countdownStep_withoutQueue (s : State) :
    s.withoutQueue.countdownStep = s.countdownStep.withoutQueue := by
  by_cases h : s.fsm = .countingDown
  · rw [State.countdownStep_counting h, State.countdownStep_counting (s := s.withoutQueue) h]; rfl
  · rw [State.countdownStep_still h, State.countdownStep_still (s := s.withoutQueue) h]

theorem State.handleTick_withoutQueue (s : State) :
    s.withoutQueue.handleTick = s.handleTick.withoutQueue := by
  rw [State.handleTick, State.blinkStep_withoutQueue, State.countdownStep_withoutQueue,
    State.handleTick]

/-- An operation of the signal interface reads neither the queue nor the outputs. -/
theorem exec_block {p : Pins} {i : Instr} (hp : firstOp p = some i) {s t : State}
    (h : exec i s = .next t) : exec i s.block = .next t.withoutQueue := by
  unfold firstOp at hp
  split_ifs at hp <;> cases hp <;> obtain rfl := Host.Outcome.next.inj h
  · rfl
  · exact congrArg Host.Outcome.next s.quiet.handleTick_withoutQueue
  · exact congrArg Host.Outcome.next s.quiet.completeSleep_withoutQueue
  · exact congrArg Host.Outcome.next (s.quiet.requestSleep_withoutQueue p.sleepMs)

/-- Two states of the same block stay so under an operation of the signal interface. -/
theorem exec_block_eq {p : Pins} {i : Instr} (hp : firstOp p = some i) {s r t u : State}
    (hsr : r.block = s.block) (hs : exec i s = .next t) (hr : exec i r = .next u) :
    u.block = t.block := by
  have hquiet {v : State} : v.withoutQueue.block = v.block := rfl
  have hwithout : u.withoutQueue = t.withoutQueue :=
    Host.Outcome.next.inj ((exec_block hp hr).symm.trans (hsr ▸ exec_block hp hs))
  rw [← hquiet (v := u), hwithout, hquiet]

/-- The first step of a moment performs its first operation on the block and leaves the rest of the
moment to come. -/
theorem step_moment {i : Instr} {is : List Instr} {p : Pins} {rest : List Input} {s r : State}
    (hs : s.inputs = .pins p :: rest) (hops : momentOps p = i :: is) (hsr : s.block = r.block) :
    ∃ t u, step s = .next t ∧ exec i r = .next u ∧
      t.inputs = (if is = [] then [] else [.pins (afterFirst p)]) ++ rest ∧ t.block = u.block := by
  have hp : firstOp p = some i := by rw [firstOp_eq, hops]; rfl
  obtain ⟨t, ht⟩ := firstOp_completes hp (s.takePins p rest)
  obtain ⟨u, hu⟩ := firstOp_completes hp r
  obtain ⟨-, -, -, hin, -⟩ := exec_setup ht
  have hleft : leftover p = if is = [] then [] else [.pins (afterFirst p)] := by
    rw [leftover_eq, hops, List.tail_cons]
  have hblock : t.block = u.block := exec_block_eq (r := s.takePins p rest) hp hsr hu ht
  exact ⟨_, u, step_pins hs hp ht, hu, hin.trans (congrArg (· ++ rest) hleft), hblock⟩

/-- As many steps as a moment has operations take the moment and perform its operations, in order,
on the block. -/
theorem run_moment {i : Instr} {is : List Instr} {p : Pins} {rest : List Input} {s r : State}
    (hs : s.inputs = .pins p :: rest) (hops : momentOps p = i :: is) (hsr : s.block = r.block) :
    ∃ t u, Host.Core.run Sys2Proof.core (is.length + 1) s = .next t ∧
      execAll (i :: is) r = .next u ∧ t.inputs = rest ∧ t.block = u.block := by
  induction is generalizing i p s r with
  | nil =>
    obtain ⟨t, u, ht, hu, hin, hblock⟩ := step_moment hs hops hsr
    exact ⟨t, u, (core_run_succ _ _ _).mpr ⟨t, ht, rfl⟩, by simp only [execAll, hu], hin, hblock⟩
  | cons j is ih =>
    obtain ⟨t, u, ht, hu, hin, hblock⟩ := step_moment hs hops hsr
    have hrest : momentOps (afterFirst p) = j :: is := by rw [momentOps_afterFirst, hops]; rfl
    obtain ⟨t', u', hrun, hexec, htaken, hblock'⟩ := ih hin hrest hblock
    exact ⟨t', u', (core_run_succ _ _ _).mpr ⟨t, ht, hrun⟩,
      by rw [← hexec]; simp only [execAll, hu], htaken, hblock'⟩

/-- Settles O9, by whether the moment asks for an operation. -/
theorem simultaneousEventsRunInFixedOrder : Obligations.SimultaneousEventsRunInFixedOrder := by
  intro p rest s hs
  change ∃ t u : State, Host.Core.run Sys2Proof.core (max 1 (momentOps p).length) s = .next t ∧
    execAll (momentOps p) s = .next u ∧ _
  cases hops : momentOps p with
  | nil =>
    have hp : firstOp p = none := by rw [firstOp_eq, hops]; rfl
    have hleft : leftover p = [] := by rw [leftover_eq, hops]; rfl
    have hstep := step_pins_none hs hp
    have hblock : ((s.takePins p rest).quiet.showSeg (segOutput p s)).block = s.block := by
      rw [State.showSeg_block, State.quiet_block, State.takePins_block]
    exact ⟨_, s, (core_run_succ 0 _ _).mpr ⟨_, hstep, rfl⟩, rfl, congrArg (· ++ rest) hleft,
      frame_of_block_eq hblock⟩
  | cons i is =>
    obtain ⟨t, u, hrun, hexec, htaken, hblock⟩ := run_moment hs hops rfl
    have hsteps : max 1 (i :: is).length = is.length + 1 := by simp
    exact ⟨t, u, hsteps ▸ hrun, hexec, htaken, frame_of_block_eq hblock⟩

end Sys2Proof.Machine
end

section
/-! SUPPORT. The invariants of every step (10_state.md R17, 20_memory.md R31,
70_reset_and_hazards.md R136), and the values at reset (10_state.md R22). -/

namespace Sys2Proof.Machine

open Sys2Proof.Config

/-! ### What no step writes (R31) -/

theorem step_rom_params {s t : State} (h : step s = .next t) :
    t.rom = s.rom ∧ t.params = s.params := by
  obtain ⟨w, rest, i, -, -, hx⟩ | ⟨p, rest, i, u, -, -, hx, rfl⟩ | ⟨p, rest, -, -, rfl⟩ |
    ⟨rest, -, rfl⟩ := step_next_cases h
  · obtain ⟨hrom, hparams, -⟩ := exec_setup hx
    exact ⟨hrom, hparams⟩
  · obtain ⟨hrom, hparams, -⟩ := exec_setup hx
    exact ⟨hrom, hparams⟩
  · exact ⟨rfl, rfl⟩
  · exact ⟨rfl, rfl⟩

/-- Settles O40, step by step. -/
theorem noRunWritesTheRomOrAParameter : Obligations.NoRunWritesTheRomOrAParameter := by
  intro k
  induction k with
  | zero =>
    intro s t h
    obtain rfl := Host.Outcome.next.inj h
    exact ⟨rfl, fun _ => rfl⟩
  | succ k ih =>
    intro s t h
    obtain ⟨u, hu, hrest⟩ := (core_run_succ k s t).mp h
    obtain ⟨hparams, hread⟩ := ih u t hrest
    obtain ⟨hrom, hparams'⟩ := step_rom_params hu
    exact ⟨hparams.trans hparams', fun a => by rw [hread a, hrom]⟩

/-! ### The invariants of R17 -/

/-- Items 2 and 3 of R17, on the pair alone: exactly a sleep in flight has ticks to go. -/
def CountdownInv (f : Fsm) (c : Ticks) : Prop :=
  (f = .countingDown → 1 ≤ c.toNat ∧ c.toNat ≤ 65535) ∧ (f ≠ .countingDown → c = 0#16)

theorem countdownInv_counting {c : Ticks} (h : c ≠ 0#16) : CountdownInv .countingDown c := by
  have hlt := c.isLt
  have hpos : c.toNat ≠ 0 := fun h0 => h (BitVec.eq_of_toNat_eq h0)
  exact ⟨fun _ => by omega, fun hne => absurd rfl hne⟩

theorem countdownInv_still {f : Fsm} (h : f ≠ .countingDown) : CountdownInv f 0#16 :=
  ⟨fun hf => absurd hf h, fun _ => rfl⟩

/-- The table of R72 keeps the two items: a SLEEP is accepted with `n` not 0, and the TICK that
reaches 0 leaves COUNTING_DOWN. -/
theorem timerAfter_countdownInv (i : Instr) {f : Fsm} {c : Ticks} (h : CountdownInv f c) :
    CountdownInv (timerAfter i f c).1 (timerAfter i f c).2 := by
  obtain hkept | ⟨n, rfl, hn, rfl⟩ | ⟨rfl, rfl⟩ | ⟨rfl, rfl⟩ | rfl | rfl := timerAfter_cases i f c
  · rwa [hkept]
  · rw [timerAfter, if_pos ⟨hn, rfl⟩]
    exact countdownInv_counting hn
  · rw [timerAfter_tick]
    by_cases h1 : c = 1#16
    · rw [h1]
      exact countdownInv_still nofun
    · rw [if_neg h1]
      exact countdownInv_counting fun h0 => h1 (BitVec.sub_eq_iff_eq_add.mp h0)
  · rw [timerAfter, if_pos rfl, h.2 nofun]
    exact countdownInv_still nofun
  · rw [timerAfter]
    split
    · exact countdownInv_counting (by decide)
    · exact h
  · exact countdownInv_still nofun

/-- A shown `toggle` comes from the TICK that wrapped the count (R68). -/
theorem exec_toggled {i : Instr} {s t : State} (h : exec i s = .next t)
    (htoggle : t.out.toggle = true) : t.blinkCnt = 0#5 ∧ 0 < t.nToggle := by
  obtain ⟨-, hwrap, -, hcount⟩ := pulsesAreAssertedExactlyByTheirOperations i s t h
  obtain ⟨rfl, hb⟩ := hwrap.mp htoggle
  obtain rfl := Host.Outcome.next.inj h
  refine ⟨?_, by rw [hcount, if_pos htoggle]; omega⟩
  rw [State.handleTick_blinkCnt, State.quiet_blinkCnt, hb]
  decide

/-- A shown `tmr_clr` comes from the start of a sleep, from the end of one, or from RESET (R20). -/
theorem exec_cleared {i : Instr} {s t : State} (h : exec i s = .next t)
    (hclr : t.out.tmrClr = true) : t.fsm ≠ .requestWake ∧ 0 < t.nClr := by
  obtain ⟨hcause, -, hcount, -⟩ := pulsesAreAssertedExactlyByTheirOperations i s t h
  refine ⟨?_, by rw [hcount, if_pos hclr]; omega⟩
  rw [exec_fsm h]
  obtain ⟨n, rfl, ha⟩ | rfl | ⟨rfl, hf⟩ | rfl := hcause.mp hclr
  · simp [timerAfter, ha]
  · have hf : s.fsm = .idle := fsm_idle_of_exec_frame h
    simp [timerAfter, hf]
  · simp [timerAfter, hf]
  · simp [timerAfter]

/-- RESET puts the caller back at boot, and no other operation moves it. -/
theorem exec_booted {i : Instr} {s t : State} (h : exec i s = .next t)
    (hs : s.callerAt = .mainLoop → s.digitSel = true) (ht : t.callerAt = .mainLoop) :
    t.digitSel = true := by
  rw [exec_digitSel h]
  by_cases hi : i = .reset
  · subst hi
    obtain rfl := Host.Outcome.next.inj h
    simp at ht
  · exact hs ((exec_callerAt h hi).symm.trans ht)

theorem exec_keeps_inv {i : Instr} {s t : State} (hs : Inv s) (h : exec i s = .next t) : Inv t := by
  have hcount : CountdownInv t.fsm t.sleepCnt := by
    rw [exec_fsm h, exec_sleepCnt h]
    exact timerAfter_countdownInv i ⟨hs.counting, hs.destroyed⟩
  exact
    { counting := hcount.1
      destroyed := hcount.2
      ledPair := exec_ledDiff h hs.ledPair
      romCanonical := exec_rom h ▸ hs.romCanonical
      toggled := exec_toggled h
      cleared := exec_cleared h
      booted := exec_booted h hs.booted }

/-- The invariants speak of no event, no draw and no shown pattern. -/
theorem Inv.of_bookkeeping {s : State} (hs : Inv s) (rest : List Input) (draws : Nat)
    (seg : Option Pattern) :
    Inv { s with inputs := rest, draws := draws, out := { s.out with seg := seg } } :=
  ⟨hs.counting, hs.destroyed, hs.ledPair, hs.romCanonical, hs.toggled, hs.cleared, hs.booted⟩

/-- With no pulse shown nothing is asked of the pulses. -/
theorem Inv.quiet {s : State} (hs : Inv s) : Inv s.quiet :=
  ⟨hs.counting, hs.destroyed, hs.ledPair, hs.romCanonical, nofun, nofun, hs.booted⟩

theorem Inv.performBoot {s : State} (hs : Inv s) : Inv s.performBoot :=
  ⟨hs.counting, hs.destroyed, hs.ledPair, hs.romCanonical, nofun, nofun, fun _ => rfl⟩

/-- Settles O52, by the kind of the event: an operation, the boot action, or a moment without
operation. -/
theorem everyStepKeepsTheInvariants : Obligations.EveryStepKeepsTheInvariants := by
  intro s t hs h
  have htaken (rest : List Input) (draws : Nat) :
      Inv { s with inputs := rest, draws := draws } := hs.of_bookkeeping rest draws s.out.seg
  obtain ⟨w, rest, i, -, -, hx⟩ | ⟨p, rest, i, u, -, -, hx, rfl⟩ | ⟨p, rest, -, -, rfl⟩ |
    ⟨rest, -, rfl⟩ := step_next_cases h
  · exact exec_keeps_inv (htaken rest s.draws) hx
  · exact (exec_keeps_inv (htaken _ _) hx).of_bookkeeping _ _ (some (segOutput p s))
  · exact (htaken _ _).quiet.of_bookkeeping _ _ (some (segOutput p s))
  · exact (htaken rest s.draws).performBoot

/-- Settles O53: nothing is in flight, shown or booted at reset, and the ROM lists nothing. -/
theorem invariantsHoldAtReset : Obligations.InvariantsHoldAtReset := fun _ =>
  { counting := nofun
    destroyed := fun _ => rfl
    ledPair := rfl
    romCanonical := reset_rom_wf
    toggled := nofun
    cleared := nofun
    booted := nofun }

/-- Settles O48: State.reset's fields, and what RESET writes where the parameters are those. -/
theorem resetStateHoldsTheResetValues : Obligations.ResetStateHoldsTheResetValues := by
  refine ⟨rfl, rfl, rfl, rfl, rfl, rfl, rfl, rfl, rfl, rfl, rfl, rfl, fun s t h hparams => ?_⟩
  obtain rfl := Host.Outcome.next.inj h
  exact ⟨⟨rfl, rfl⟩, ⟨rfl, congrArg Params.ledReset hparams⟩, rfl, rfl, rfl⟩

end Sys2Proof.Machine
end

section
/-! SUPPORT. The patterns that are shown (20_memory.md R30, 41_segment_encoder.md R82 to R85): what
tables the ROM can hold, what an operation puts on `seg`, what the trace of a DISPLAY tells of its
pattern (42_environment_display_mainloop.md R89). -/

namespace Sys2Proof.Machine

open Sys2Proof.Config

/-! ### Any table can be held (R6, R30) -/

/-- Setting entries one after the other keeps the canonical form and sets those entries alone. -/
theorem romPut_foldl (table : Vector Pattern 10) (ds : List (Fin 10)) {m : Memory}
    (hm : Memory.wf m = true) :
    Memory.wf (ds.foldl (fun m d => romPut m d table[d]) m) = true ∧
      ∀ e, romEntry (ds.foldl (fun m d => romPut m d table[d]) m) e =
        if e ∈ ds then table[e] else romEntry m e := by
  induction ds generalizing m with
  | nil => exact ⟨hm, fun e => by simp⟩
  | cons d ds ih =>
    obtain ⟨hwf, hentry⟩ := ih (romPut_wf hm d table[d])
    refine ⟨hwf, fun e => ?_⟩
    rw [List.foldl_cons, hentry, romEntry_romPut hm]
    by_cases hde : d = e
    · simp [hde]
    · simp [hde, Ne.symm hde]

theorem romOfTable_wf (table : Vector Pattern 10) : Memory.wf (romOfTable table) = true :=
  (romPut_foldl table (List.finRange 10) (m := []) rfl).1

theorem romEntry_romOfTable (table : Vector Pattern 10) (d : Fin 10) :
    romEntry (romOfTable table) d = table[d] :=
  ((romPut_foldl table (List.finRange 10) (m := []) rfl).2 d).trans
    (if_pos (List.mem_finRange d))

/-- ENCODE of a digit shows its entry (R81). -/
theorem exec_encode_digit (d : Fin 10) (s : State) :
    exec (.encode (BitVec.ofNat 4 d.val)) s = .next (s.quiet.showSeg (romEntry s.rom d)) :=
  exec_encode_of_romRead (romRead_digit s.rom d)

/-- Settles O37: the ROM made from a table has its entries, in canonical form. -/
theorem anySegmentTableCanBeHeld : Obligations.AnySegmentTableCanBeHeld := by
  intro table s hs
  refine ⟨hs ▸ romOfTable_wf table, fun d => ⟨_, exec_encode_digit d s, ?_⟩⟩
  rw [hs, romEntry_romOfTable]
  rfl

/-- Settles O36, digit by digit of the default table. -/
theorem defaultPatternsAreShown : Obligations.DefaultPatternsAreShown := by
  refine ⟨fun d => ⟨_, exec_encode_digit d State.reset, ?_⟩, _, exec_encodeDp State.reset, rfl⟩
  show some (romEntry State.reset.rom d) = _
  revert d
  decide

/-- Settles O38: a fixed table and layout, evaluated. -/
theorem defaultTableIsAsDocumented : Obligations.DefaultTableIsAsDocumented :=
  ⟨by decide, by decide, rfl, rfl⟩

/-! ### Which patterns are shown (R85) -/

/-- The pattern is one of the eleven: an entry of the table, or SEG_DP_ONLY. -/
def IsShownPattern (s : State) (p : Pattern) : Prop :=
  (∃ d, p = romEntry s.rom d) ∨ p = s.params.segDpOnly

theorem isShownPattern_of_romRead {s : State} {a : Nat} {p : Pattern}
    (h : romRead s.rom a = some p) : IsShownPattern s p := by
  have ha : a < 10 := by simpa [h] using (romRead_isSome s.rom a).symm
  have hentry : some (romEntry s.rom ⟨a, ha⟩) = some p := (romRead_entry s.rom ⟨a, ha⟩).symm.trans h
  exact .inl ⟨⟨a, ha⟩, (Option.some.inj hentry).symm⟩

theorem State.framePattern_isShownPattern (s : State) : IsShownPattern s s.framePattern := by
  cases hf : s.frame with
  | digit d => exact .inl ⟨d, State.framePattern_digit hf⟩
  | dp => exact .inr (State.framePattern_dp hf)

/-- Every operation that shows a pattern shows one of the eleven; the others show none. -/
theorem exec_seg {i : Instr} {s t : State} (h : exec i s = .next t) {p : Pattern}
    (hp : t.out.seg = some p) : IsShownPattern s p := by
  obtain ⟨n, -, rfl⟩ | ⟨-, rfl⟩ | ⟨-, rfl⟩ | ⟨d, q, -, hq, rfl⟩ | ⟨-, rfl⟩ | ⟨q, -, rfl⟩ |
    ⟨-, hf, rfl⟩ | ⟨-, rfl⟩ := exec_next_cases h
  · rw [State.requestSleep_out] at hp
    split at hp <;> cases hp
  · rw [State.handleTick_out] at hp
    split at hp <;> cases hp
  · rw [State.completeSleep_out] at hp
    split at hp <;> cases hp
  · cases hp
    exact isShownPattern_of_romRead hq
  · cases hp
    exact .inr rfl
  · rw [State.driveDisplay_out] at hp
    cases hp
  · rw [State.runFrame_out (s := s.quiet) hf] at hp
    cases hp
    exact s.framePattern_isShownPattern
  · cases hp

theorem exec_frame_trace {s t : State} (h : exec .frame s = .next t) :
    t.trace = s.trace ++ displayTrace s.framePattern := by
  have hf : s.fsm = .idle := fsm_idle_of_exec_frame h
  obtain rfl := Host.Outcome.next.inj ((exec_frame_idle hf).symm.trans h)
  exact (State.runFrame_lines (s := s.quiet) hf).1

/-- Settles O39: what is shown is read from the table or is the parameter, and so is the pattern of
a frame. -/
theorem onlyElevenPatternsAreShown : Obligations.OnlyElevenPatternsAreShown := by
  refine fun i s t h => ⟨fun p => exec_seg h, fun hi => ?_⟩
  subst hi
  exact ⟨s.framePattern, exec_frame_trace h, s.framePattern_isShownPattern⟩

/-- Settles O44, by whether the block is in IDLE. -/
theorem frameShowsItsPatternOrStopsByName : Obligations.FrameShowsItsPatternOrStopsByName := by
  refine ⟨fun s hf => ?_, fun s => exec_frame_refused⟩
  have hseg : s.quiet.runFrame.out.seg = some s.framePattern :=
    congrArg Outputs.seg (State.runFrame_out (s := s.quiet) hf)
  exact ⟨_, exec_frame_idle hf,
    fun d hd => hseg.trans (congrArg some (State.framePattern_digit hd)),
    fun hdp => hseg.trans (congrArg some (State.framePattern_dp hdp))⟩

/-! ### The trace of a DISPLAY (R89) -/

/-- Each bit period lowers the clock once and raises it once. -/
theorem count_clk_bitPeriod (level : Level) (p : Pattern) (k : Nat) :
    (bitPeriod p k).count ⟨.clk, level⟩ = 1 := by
  cases level <;> simp [bitPeriod]

theorem count_clk_displayTrace (level : Level) (p : Pattern) :
    (displayTrace p).count ⟨.clk, level⟩ = 9 := by
  have hperiods : ((List.range 9).flatMap (bitPeriod p)).count ⟨.clk, level⟩ = 9 := by
    simp [List.count_flatMap, Function.comp_def, count_clk_bitPeriod]
  simp [displayTrace, hperiods]

/-- Between blanking and showing there are the bit periods alone, and they do not touch `sr_oe`. -/
theorem displayTrace_inner (p : Pattern) {w : LineWrite} (h : w ∈ (displayTrace p).tail.dropLast) :
    w.line ≠ .oe := by
  have hinner : (displayTrace p).tail.dropLast = (List.range 9).flatMap (bitPeriod p) := rfl
  rw [hinner, List.mem_flatMap] at h
  obtain ⟨k, -, hw⟩ := h
  simp only [bitPeriod, List.mem_cons, List.not_mem_nil, or_false] at hw
  obtain rfl | rfl | rfl := hw <;> nofun

/-- The shift register samples every bit of the pattern, so the trace tells the pattern (R88). -/
theorem displayTrace_injective {p q : Pattern} (h : displayTrace p = displayTrace q) : p = q := by
  have hlevels : (List.range 9).map (periodLevel p) = (List.range 9).map (periodLevel q) := by
    rw [← sampledBits_displayTrace false false p, h, sampledBits_displayTrace]
  refine BitVec.eq_of_getLsbD_eq fun j hj => ?_
  have hbit : periodLevel p (7 - j) = periodLevel q (7 - j) :=
    List.map_inj_left.mp hlevels (7 - j) (List.mem_range.mpr (by omega))
  have hj' : 7 - (7 - j) = j := by omega
  simpa [periodLevel, hj'] using hbit

/-- Settles O42, property by property of the trace. -/
theorem displayTraceIsBlankedAndFaithful : Obligations.DisplayTraceIsBlankedAndFaithful := by
  refine ⟨fun p => ⟨count_clk_displayTrace false p, count_clk_displayTrace true p, rfl, rfl, rfl,
    fun w => displayTrace_inner p⟩, fun p s => ⟨_, rfl, ?_⟩, fun p q => displayTrace_injective⟩
  simp

/-! ### Where control returns after the handler (R113) -/

/-- Settles O31, by the state before the TICK and, in COUNTING_DOWN, whether it is the last. -/
theorem tickReturnsControlByState : Obligations.TickReturnsControlByState := by
  intro s
  have htick : exec .tick s = .next s.quiet.handleTick := rfl
  refine ⟨_, htick, ?_⟩
  rw [exec_fsm htick]
  cases hf : s.fsm with
  | countingDown =>
    by_cases h1 : s.sleepCnt = 1#16 <;> simp [timerAfter, tickReturn, h1]
  | idle | requestWake => simp [timerAfter, tickReturn]

end Sys2Proof.Machine
end

section
/-! SUPPORT. Runs with many TICKs (40_timer_scheduler.md R68, R69, R73): the blink duty of any run
without RESET, what a stretch of TICKs leaves alone, the countdown over a stretch of TICKs, and the
blocking call as a whole. -/

namespace Sys2Proof.Machine

open Sys2Proof.Config

/-! ### Runs put together -/

theorem execAll_cons_of {i : Instr} {is : List Instr} {s u : State} (h : exec i s = .next u) :
    execAll (i :: is) s = execAll is u := by
  simp only [execAll, h]

theorem execAll_append_of {is js : List Instr} {s u t : State} (h : execAll is s = .next u)
    (h' : execAll js u = .next t) : execAll (is ++ js) s = .next t :=
  (execAll_append h).trans h'

theorem execAll_singleton {i : Instr} {s t : State} (h : exec i s = .next t) :
    execAll [i] s = .next t := execAll_cons_of h

theorem ticks_add (j k : Nat) : ticks (j + k) = ticks j ++ ticks k :=
  (List.replicate_append_replicate ..).symm

theorem reset_notMem_ticks (k : Nat) : Instr.reset ∉ ticks k := by simp [ticks]

theorem count_tick_ticks (k : Nat) : (ticks k).count .tick = k := List.count_replicate_self

theorem execAll_ticks_completes (k : Nat) (s : State) : ∃ t, execAll (ticks k) s = .next t := by
  induction k generalizing s with
  | zero => exact ⟨s, rfl⟩
  | succ k ih => exact execAll_ticks_succ k s ▸ ih s.quiet.handleTick

/-! ### The blink duty of a run without RESET (R68) -/

theorem ledAfter_add (m n : Nat) (l : LedPair) :
    ledAfter n (ledAfter m l) = ledAfter (m + n) l := by
  have hinverted : l ^^^ 0b11#2 ^^^ 0b11#2 = l := by rw [BitVec.xor_assoc]; simp
  unfold ledAfter
  rcases Nat.mod_two_eq_zero_or_one m with hm | hm <;>
    rcases Nat.mod_two_eq_zero_or_one n with hn | hn <;> simp [Nat.add_mod, hm, hn, hinverted]

/-- From `s` to `t` the blink duty has seen `k` TICKs. -/
structure BlinkedBy (k : Nat) (s t : State) : Prop where
  blinkCnt : t.blinkCnt.toNat = (s.blinkCnt.toNat + k) % 32
  nToggle : t.nToggle = s.nToggle + (s.blinkCnt.toNat + k) / 32
  led : t.led = ledAfter ((s.blinkCnt.toNat + k) / 32) s.led

theorem blinkedBy_zero {s t : State} (h : SameBlink s t) (hcount : t.nToggle = s.nToggle) :
    BlinkedBy 0 s t := by
  have hlt := s.blinkCnt.isLt
  have hdiv : (s.blinkCnt.toNat + 0) / 32 = 0 := by omega
  refine ⟨?_, by rw [hcount, hdiv, Nat.add_zero], by rw [h.led, hdiv]; rfl⟩
  rw [h.blinkCnt]
  omega

theorem blinkedBy_tick (s : State) : BlinkedBy 1 s s.quiet.handleTick := by
  have hlt := s.blinkCnt.isLt
  have hcnt : s.quiet.handleTick.blinkCnt = s.blinkCnt + 1#5 := s.quiet.handleTick_blinkCnt
  have hled := s.quiet.handleTick_led
  have htoggle := s.quiet.handleTick_nToggle
  rw [State.quiet_blinkCnt] at hled htoggle
  by_cases hb : s.blinkCnt = 31#5
  · rw [if_pos hb] at hled htoggle
    refine ⟨by rw [hcnt, hb]; rfl, by rw [htoggle, hb]; rfl, by rw [hled, hb]; rfl⟩
  · have hne : s.blinkCnt.toNat ≠ 31 := fun h => hb (BitVec.eq_of_toNat_eq h)
    have hdiv : (s.blinkCnt.toNat + 1) / 32 = 0 := by omega
    rw [if_neg hb] at hled htoggle
    refine ⟨by rw [hcnt]; bv_omega, by rw [htoggle, hdiv]; rfl, by rw [hled, hdiv]; rfl⟩

theorem BlinkedBy.trans {j k : Nat} {s t u : State} (h : BlinkedBy j s t) (h' : BlinkedBy k t u) :
    BlinkedBy (j + k) s u := by
  have hdiv : (s.blinkCnt.toNat + j) / 32 + ((s.blinkCnt.toNat + j) % 32 + k) / 32 =
      (s.blinkCnt.toNat + (j + k)) / 32 := by omega
  refine ⟨?_, ?_, ?_⟩
  · rw [h'.blinkCnt, h.blinkCnt]
    omega
  · rw [h'.nToggle, h.nToggle, h.blinkCnt, Nat.add_assoc, hdiv]
  · rw [h'.led, h.led, h.blinkCnt, ledAfter_add, hdiv]

theorem exec_nToggle {i : Instr} {s t : State} (h : exec i s = .next t) (htick : i ≠ .tick) :
    t.nToggle = s.nToggle := by
  obtain ⟨-, hwrap, -, hcount⟩ := pulsesAreAssertedExactlyByTheirOperations i s t h
  rw [hcount, if_neg fun htoggle => htick (hwrap.mp htoggle).1, Nat.add_zero]

/-- In a run without RESET the blink duty sees the TICKs and nothing else. -/
theorem execAll_blinkedBy {is : List Instr} {s t : State} (hreset : Instr.reset ∉ is)
    (h : execAll is s = .next t) : BlinkedBy (is.count .tick) s t := by
  induction is generalizing s with
  | nil =>
    obtain rfl := Host.Outcome.next.inj h
    exact blinkedBy_zero ⟨rfl, rfl⟩ rfl
  | cons i is ih =>
    obtain ⟨u, hu, hrest⟩ := execAll_cons_next h
    obtain ⟨hi, his⟩ := List.ne_and_not_mem_of_not_mem_cons hreset
    have htail := ih his hrest
    by_cases htick : i = .tick
    · subst htick
      obtain rfl := Host.Outcome.next.inj hu
      rw [List.count_cons_self, Nat.add_comm]
      exact (blinkedBy_tick s).trans htail
    · rw [List.count_cons_of_ne htick, ← Nat.zero_add (is.count .tick)]
      exact (blinkedBy_zero (exec_sameBlink hu htick (Ne.symm hi)) (exec_nToggle hu htick)).trans
        htail

/-! ### What a stretch of TICKs leaves alone (R67) -/

/-- Any number of TICKs writes only what one TICK writes. -/
theorem execAll_ticks_eq_written {k : Nat} {s t : State} (h : execAll (ticks k) s = .next t) :
    t = written .tick s t := by
  refine execAll_keeps (P := fun u => u = written .tick s u) (fun i hi u v hv hu => ?_) h rfl
  obtain rfl : i = .tick := List.eq_of_mem_replicate hi
  rw [exec_eq_written hv, hu]
  rfl

theorem execAll_ticks_blinkedBy {k : Nat} {s t : State} (h : execAll (ticks k) s = .next t) :
    BlinkedBy k s t :=
  count_tick_ticks k ▸ execAll_blinkedBy (reset_notMem_ticks k) h

/-- Settles O17: the blink duty has seen `k` TICKs, and a TICK is no row of `err` or `tmr_clr`. -/
theorem ticksCountModulo32 : Obligations.TicksCountModulo32 := by
  intro k s
  obtain ⟨t, ht⟩ := execAll_ticks_completes k s
  obtain ⟨hcnt, htoggle, hled⟩ := execAll_ticks_blinkedBy ht
  have hw := execAll_ticks_eq_written ht
  exact ⟨t, ht, hcnt, htoggle, hled, (congrArg State.err hw :), (congrArg State.nClr hw :)⟩

/-! ### The countdown over a stretch of TICKs (R69) -/

/-- With no sleep in flight TICKs move neither `fsm` nor `sleep_cnt`. -/
theorem execAll_ticks_still {k : Nat} {s t : State} (h : execAll (ticks k) s = .next t)
    (hf : s.fsm ≠ .countingDown) : SameTimer s t := by
  refine execAll_keeps (P := fun u => SameTimer s u) (fun i hi u v hv hu => ?_) h ⟨rfl, rfl⟩
  obtain rfl : i = .tick := List.eq_of_mem_replicate hi
  obtain rfl := Host.Outcome.next.inj hv
  have hstill : SameTimer u u.quiet.handleTick := State.handleTick_sameTimer (hu.fsm ▸ hf)
  exact ⟨hstill.fsm.trans hu.fsm, hstill.sleepCnt.trans hu.sleepCnt⟩

/-- Fewer TICKs than `sleep_cnt` leave the sleep in flight. -/
theorem execAll_ticks_counting {k : Nat} {s t : State} (h : execAll (ticks k) s = .next t)
    (hf : s.fsm = .countingDown) (hk : k < s.sleepCnt.toNat) :
    t.fsm = .countingDown ∧ t.sleepCnt.toNat = s.sleepCnt.toNat - k := by
  have hkept := sleepInFlightCannotBeCancelled (ticks k) s t (reset_notMem_ticks k) hf
  rw [count_tick_ticks] at hkept
  exact hkept hk h

/-- As many TICKs as `sleep_cnt`, or more, end the sleep: the last of them requests the wake-up. -/
theorem execAll_ticks_woken {k : Nat} {s t : State} (h : execAll (ticks k) s = .next t)
    (hf : s.fsm = .countingDown) (hpos : 0 < s.sleepCnt.toNat) (hk : s.sleepCnt.toNat ≤ k) :
    t.fsm = .requestWake ∧ t.sleepCnt = 0#16 := by
  obtain ⟨j, rfl⟩ := Nat.exists_eq_add_of_le hk
  obtain ⟨c, hc⟩ := Nat.exists_eq_add_of_lt hpos
  obtain ⟨u, hu⟩ := execAll_ticks_completes c s
  obtain ⟨hfu, hcu⟩ := execAll_ticks_counting hu hf (by omega)
  have hlast : u.sleepCnt = 1#16 := BitVec.eq_of_toNat_eq (by rw [hcu, hc]; simp)
  obtain ⟨hfv, hcv⟩ := exec_tick_counting (s := u) rfl hfu
  rw [hlast] at hfv hcv
  have hsplit : ticks (s.sleepCnt.toNat + j) = ticks c ++ .tick :: ticks j := by
    rw [hc, Nat.zero_add, Nat.add_assoc, Nat.add_comm 1 j, ticks_add]
    rfl
  rw [hsplit, execAll_append hu] at h
  have hstill := execAll_ticks_still (k := j) (s := u.quiet.handleTick) h (by rw [hfv]; decide)
  exact ⟨hstill.fsm.trans hfv, hstill.sleepCnt.trans hcv⟩

/-! ### The blocking call (R73) -/

theorem State.lpm_eq_false_iff (s : State) : s.lpm = false ↔ s.fsm ≠ .countingDown := by
  rw [Ne, ← s.lpm_iff, Bool.not_eq_true]

/-- Without SLEEP and FRAME the block does not get back into COUNTING_DOWN. -/
theorem execAll_not_counting {is : List Instr} (hsleep : ∀ m, Instr.sleep m ∉ is)
    (hframe : Instr.frame ∉ is) {s t : State} (h : execAll is s = .next t)
    (hs : s.fsm ≠ .countingDown) : t.fsm ≠ .countingDown := by
  refine execAll_keeps (P := fun u => u.fsm ≠ .countingDown) (fun i hi u v hv hu hf => ?_) h hs
  obtain ⟨m, rfl, -⟩ | rfl := startsSleep_of_enters_countingDown hv hu hf
  · exact hsleep m hi
  · exact hframe hi

/-- An accepted SLEEP and `k` TICKs, `n` of them counting. -/
theorem execAll_sleep_ticks {n : Ticks} {s : State} (hn : n ≠ 0#16) (hf : s.fsm = .idle) (k : Nat) :
    ∃ t, execAll (.sleep n :: ticks k) s = .next t ∧
      (k < n.toNat → t.fsm = .countingDown ∧ t.sleepCnt.toNat = n.toNat - k) ∧
      (n.toNat ≤ k → t.fsm = .requestWake ∧ t.sleepCnt = 0#16) ∧
      t.err = s.err ∧ t.nClr = s.nClr + 1 := by
  obtain ⟨t, ht⟩ := execAll_ticks_completes k
    (State.pulseClr { s.quiet with sleepCnt := n, fsm := .countingDown })
  have hpos : 0 < n.toNat := Nat.pos_of_ne_zero fun h0 => hn (BitVec.eq_of_toNat_eq h0)
  have hw := execAll_ticks_eq_written ht
  exact ⟨t, (execAll_cons_of (exec_sleep_accepted hn hf)).trans ht, execAll_ticks_counting ht rfl,
    execAll_ticks_woken ht rfl hpos, (congrArg State.err hw :), (congrArg State.nClr hw :)⟩

/-- Settles O18: the countdown over `k` TICKs, and what can enter COUNTING_DOWN again. -/
theorem sleepLastsExactlyItsTicks : Obligations.SleepLastsExactlyItsTicks := by
  intro n s hf hn k
  obtain ⟨t, ht, hcounting, hwoken, -⟩ := execAll_sleep_ticks hn hf k
  refine ⟨t, ht, fun hk => ?_, fun hk => ?_⟩
  · obtain ⟨hft, hct⟩ := hcounting hk
    exact ⟨hft, hct, t.lpm_iff.mpr hft⟩
  · obtain ⟨hft, hct⟩ := hwoken hk
    have hne : t.fsm ≠ .countingDown := by rw [hft]; decide
    exact ⟨hft, hct, t.lpm_eq_false_iff.mpr hne, t.wake_iff.mpr hft, fun is u hsleep hframe hu =>
      u.lpm_eq_false_iff.mpr (execAll_not_counting hsleep hframe hu hne)⟩

/-- Settles O19: the sleep has ended after `n` + `i` TICKs, the RESUME is accepted, and the blink
duty has seen those TICKs. -/
theorem blockingSleepClosedForm : Obligations.BlockingSleepClosedForm := by
  intro n i s hf hn
  obtain ⟨t, ht, -, hwoken, herr, hclr⟩ := execAll_sleep_ticks hn hf (n.toNat + i)
  obtain ⟨hft, hct⟩ := hwoken (Nat.le_add_right ..)
  have hlist : [Instr.sleep n] ++ ticks n.toNat ++ ticks i ++ [.resume] =
      .sleep n :: ticks (n.toNat + i) ++ [.resume] := by simp [ticks_add]
  have hcount : List.count Instr.tick (.sleep n :: ticks (n.toNat + i) ++ [.resume]) =
      n.toNat + i := by simp [count_tick_ticks]
  have hrun := execAll_append_of ht (execAll_singleton (exec_resume_accepted hft))
  obtain ⟨hcnt, htoggle, hled⟩ := execAll_blinkedBy (by simp [reset_notMem_ticks]) hrun
  rw [hcount, ← Nat.add_assoc] at hcnt htoggle hled
  exact ⟨_, (congrArg (execAll · s) hlist).trans hrun, rfl, hct, hcnt, hled, htoggle,
    congrArg (· + 1) hclr, herr⟩

end Sys2Proof.Machine
end

section
/-! SUPPORT. MainLoop (42_environment_display_mainloop.md R91, R92): one iteration, and any number
of them, of which eleven are the cycle. -/

namespace Sys2Proof.Machine

open Sys2Proof.Config

/-! ### One iteration (R55, R92) -/

/-- FRAME in IDLE and `k` TICKs, 100 of them counting. -/
theorem execAll_frame_ticks {s : State} (hf : s.fsm = .idle) (k : Nat) :
    ∃ t, execAll (.frame :: ticks k) s = .next t ∧
      (k < 100 → t.fsm = .countingDown ∧ t.sleepCnt.toNat = 100 - k) ∧
      (100 ≤ k → t.fsm = .requestWake ∧ t.sleepCnt = 0#16) ∧
      t.err = s.err ∧ t.frame = s.frame.next ∧
      t.trace = s.trace ++ displayTrace s.framePattern ∧ t.nClr = s.nClr + 1 := by
  have hq : s.quiet.fsm = .idle := hf
  obtain ⟨t, ht⟩ := execAll_ticks_completes k s.quiet.runFrame
  have hframed : s.quiet.runFrame.fsm = .countingDown := State.runFrame_fsm hq
  have hlength : s.quiet.runFrame.sleepCnt.toNat = 100 :=
    congrArg BitVec.toNat (State.runFrame_sleepCnt hq)
  have hcounting := execAll_ticks_counting ht hframed
  have hwoken := execAll_ticks_woken ht hframed
  rw [hlength] at hcounting hwoken
  have hw := execAll_ticks_eq_written ht
  exact ⟨t, (execAll_cons_of (exec_frame_idle hf)).trans ht, hcounting, hwoken (by decide),
    (congrArg State.err hw :).trans (State.runFrame_err hq), (congrArg State.frame hw :),
    (congrArg State.trace hw :).trans (State.runFrame_lines hq).1,
    (congrArg State.nClr hw :).trans (State.runFrame_nClr hq)⟩

/-- One iteration displays the frame at hand, sleeps to the end and advances the frame. -/
theorem execAll_mainloopFrame {s : State} (hf : s.fsm = .idle) :
    ∃ t, execAll mainloopFrame s = .next t ∧ t.fsm = .idle ∧ t.sleepCnt = 0#16 ∧ t.err = s.err ∧
      t.frame = s.frame.next ∧ t.trace = s.trace ++ displayTrace s.framePattern ∧
      t.nClr = s.nClr + 2 := by
  obtain ⟨u, hu, -, hwoken, herr, hframe, htrace, hclr⟩ := execAll_frame_ticks hf 100
  obtain ⟨hfu, hcu⟩ := hwoken le_rfl
  exact ⟨_, execAll_append_of hu (execAll_singleton (exec_resume_accepted hfu)), rfl, hcu, herr,
    hframe, htrace, congrArg (· + 1) hclr⟩

theorem count_tick_mainloopFrame : mainloopFrame.count .tick = 100 := by
  simp [mainloopFrame, frameDwell, count_tick_ticks]

theorem reset_notMem_mainloopFrame : Instr.reset ∉ mainloopFrame := by
  simp [mainloopFrame, reset_notMem_ticks]

/-- Settles O45: the iteration's 100 TICKs are all its blink duty sees; fewer leave it asleep. -/
theorem mainLoopFrameHoldsOneFrameFor100Ticks :
    Obligations.MainLoopFrameHoldsOneFrameFor100Ticks := by
  intro s hf
  obtain ⟨t, ht, hft, hct, herr, hframe, htrace, hclr⟩ := execAll_mainloopFrame hf
  obtain ⟨hcnt, htoggle, -⟩ := execAll_blinkedBy reset_notMem_mainloopFrame ht
  rw [count_tick_mainloopFrame] at hcnt htoggle
  refine ⟨t, ht, hft, hct, herr, hframe, htrace, hcnt, htoggle, hclr, fun k hk => ?_⟩
  obtain ⟨u, hu, hcounting, -, -, -, hshown, -⟩ := execAll_frame_ticks hf k
  obtain ⟨hfu, hcu⟩ := hcounting hk
  exact ⟨u, hu, hfu, hcu, u.lpm_iff.mpr hfu, hshown⟩

/-! ### Any number of iterations -/

/-- The pattern of a frame, with the ROM and the parameters of `s` (R91). -/
def State.patternOf (s : State) (f : Frame) : Pattern := { s with frame := f }.framePattern

theorem State.patternOf_eq {s t : State} (hrom : t.rom = s.rom) (hparams : t.params = s.params) :
    t.patternOf = s.patternOf := by
  funext f
  cases f with
  | digit d => exact congrArg (romEntry · d) hrom
  | dp => exact congrArg Params.segDpOnly hparams

/-- No run writes the ROM or a parameter, so a frame keeps its pattern. -/
theorem execAll_patternOf {is : List Instr} {s t : State} (h : execAll is s = .next t) :
    t.patternOf = s.patternOf :=
  execAll_keeps (P := fun u => u.patternOf = s.patternOf)
    (fun _ _ _ _ hx hu => (State.patternOf_eq (exec_rom hx) (exec_params hx)).trans hu) h rfl

/-- `k` iterations display the frames from the one at hand on, in their sequence. -/
theorem execAll_mainloopFrames (k : Nat) {s : State} (hf : s.fsm = .idle) :
    ∃ t, execAll (mainloopFrames k) s = .next t ∧ t.fsm = .idle ∧ t.err = s.err ∧
      t.frame = Frame.next^[k] s.frame ∧
      t.trace = s.trace ++
        (List.iterate Frame.next s.frame k).flatMap (fun f => displayTrace (s.patternOf f)) ∧
      t.nClr = s.nClr + 2 * k := by
  induction k generalizing s with
  | zero => exact ⟨s, rfl, hf, rfl, rfl, (List.append_nil _).symm, rfl⟩
  | succ k ih =>
    obtain ⟨u, hu, hfu, -, herr, hframe, htrace, hclr⟩ := execAll_mainloopFrame hf
    obtain ⟨t, ht, hft, herr', hframe', htrace', hclr'⟩ := ih hfu
    refine ⟨t, execAll_append_of hu ht, hft, herr'.trans herr, ?_, ?_, by omega⟩
    · rw [hframe', hframe, Function.iterate_succ_apply]
    · rw [htrace', htrace, hframe, execAll_patternOf hu, List.append_assoc]
      rfl

theorem count_tick_mainloopFrames (k : Nat) : (mainloopFrames k).count .tick = 100 * k := by
  induction k with
  | zero => rfl
  | succ k ih =>
    rw [mainloopFrames, List.count_append, ih, count_tick_mainloopFrame, Nat.mul_succ, Nat.add_comm]

theorem reset_notMem_mainloopFrames (k : Nat) : Instr.reset ∉ mainloopFrames k := by
  induction k with
  | zero => exact List.not_mem_nil
  | succ k ih => exact List.not_mem_append reset_notMem_mainloopFrame ih

/-- The frames of one cycle, from 9 on (R91). -/
theorem frames_of_cycle :
    List.iterate Frame.next (.digit 9) 11 =
      ([9, 8, 7, 6, 5, 4, 3, 2, 1, 0] : List (Fin 10)).map Frame.digit ++ [.dp] := rfl

/-- Settles O46: eleven iterations go through the frames once and are back at 9. -/
theorem mainLoopCycleShowsEachFrameOnce : Obligations.MainLoopCycleShowsEachFrameOnce := by
  intro s hf h9
  obtain ⟨t, ht, hft, herr, hframe, htrace, hclr⟩ := execAll_mainloopFrames 11 hf
  obtain ⟨hcnt, htoggle, hled⟩ := execAll_blinkedBy (reset_notMem_mainloopFrames 11) ht
  rw [count_tick_mainloopFrames] at hcnt htoggle hled
  rw [h9] at hframe htrace
  rw [frames_of_cycle, List.flatMap_append, List.flatMap_map, ← List.append_assoc] at htrace
  refine ⟨t, ht, hft, hframe, herr, ?_, hcnt, hled, htoggle, hclr⟩
  rw [htrace]
  simp [State.patternOf, State.framePattern]

end Sys2Proof.Machine
end

section
/-! SUPPORT. The caller and the whole system (42_environment_display_mainloop.md R92, R93,
70_reset_and_hazards.md R134, R136): a caller that keeps its duties is not rejected, and the turns
of the three agents. -/

namespace Sys2Proof.Machine

open Sys2Proof.Config

/-! ### The caller's duties (R93) -/

/-- An operation that the caller may issue has no cause for rejection. -/
theorem exec_noFault_of_callerMay {i : Instr} {s t : State} (hmay : callerMay i s = true)
    (hs : noFault s) (h : exec i s = .next t) : noFault t := by
  cases i with
  | sleep n =>
    have haccepted : s.fsm = .idle ∧ n ≠ 0#16 := of_decide_eq_true hmay
    obtain rfl := Host.Outcome.next.inj
      ((exec_sleep_accepted haccepted.2 haccepted.1).symm.trans h)
    exact hs
  | resume =>
    have hwoken : s.fsm = .requestWake := of_decide_eq_true hmay
    obtain rfl := Host.Outcome.next.inj ((exec_resume_accepted hwoken).symm.trans h)
    exact hs
  | reset =>
    obtain rfl := Host.Outcome.next.inj h
    rfl
  | tick | encode d | encodeDp | display p | frame => exact (exec_err h nofun nofun nofun).trans hs

/-- What the caller may issue completes and leaves no error. -/
theorem exec_of_callerMay {i : Instr} {s : State} (hmay : callerMay i s = true) (hs : noFault s) :
    ∃ t, exec i s = .next t ∧ noFault t := by
  obtain ⟨t, ht⟩ := (allowedOperationsComplete i s).1 hmay
  exact ⟨t, ht, exec_noFault_of_callerMay hmay hs ht⟩

theorem callerMay_of_mainLoopNext {s : State} {i : Instr} (h : mainLoopNext s = some i) :
    callerMay i s = true := by
  unfold mainLoopNext at h
  split at h
  · next hf => cases h; exact decide_eq_true hf
  · cases h
  · next hf => cases h; exact decide_eq_true hf

/-- Settles O55, along the run. -/
theorem dutifulCallersAreNeverRejected : Obligations.DutifulCallersAreNeverRejected := by
  refine ⟨fun is => ?_, fun s i => callerMay_of_mainLoopNext⟩
  induction is with
  | nil => exact fun s hs _ => ⟨s, rfl, hs⟩
  | cons i is ih =>
    intro s hs hd
    have hmay : callerMay i s = true := by
      rw [dutiful, Bool.and_eq_true] at hd
      exact hd.1
    obtain ⟨u, hu, herr⟩ := exec_of_callerMay hmay hs
    rw [dutiful_cons_next hu, Bool.and_eq_true] at hd
    rw [execAll_cons_of hu]
    exact ih u herr hd.2

/-! ### The caller's next event (R134, R136) -/

theorem callerNext_boot {s : State} (hat : s.callerAt = .boot) (hf : s.fsm ≠ .countingDown) :
    callerNext s = some .boot := by
  rw [callerNext, s.lpm_eq_false_iff.mpr hf, hat]
  rfl

theorem callerNext_mainLoop {s : State} (hat : s.callerAt = .mainLoop)
    (hf : s.fsm ≠ .countingDown) :
    callerNext s = (mainLoopNext s).map fun i => .word (encode i) := by
  rw [callerNext, s.lpm_eq_false_iff.mpr hf, hat]
  rfl

theorem callerNext_halted {s : State} (hf : s.fsm = .countingDown) : callerNext s = none :=
  if_pos (s.lpm_iff.mpr hf)

/-! ### One turn, agent by agent (R9) -/

theorem systemStep_timer (s : State) : systemStep .timer s = exec .tick s :=
  step_word (s := s.pushInput (.word (encode .tick))) rfl (decode_encode rfl)

theorem systemStep_reset (s : State) : systemStep .reset s = exec .reset s :=
  step_word (s := s.pushInput (.word (encode .reset))) rfl (decode_encode rfl)

theorem systemStep_caller_halted {s : State} (hf : s.fsm = .countingDown) :
    systemStep .caller s = .next s := by
  simp only [systemStep, Turn.event, callerNext_halted hf]

theorem systemStep_caller_boot {s : State} (hat : s.callerAt = .boot)
    (hf : s.fsm ≠ .countingDown) : systemStep .caller s = .next s.performBoot := by
  simp only [systemStep, Turn.event, callerNext_boot hat hf]
  exact step_boot (s := s.pushInput .boot) rfl

theorem systemStep_caller_mainLoop {s : State} {i : Instr} (hat : s.callerAt = .mainLoop)
    (hf : s.fsm ≠ .countingDown) (hi : mainLoopNext s = some i) :
    systemStep .caller s = exec i s := by
  have hmay : callerMay i s = true := callerMay_of_mainLoopNext hi
  simp only [systemStep, Turn.event, callerNext_mainLoop hat hf, hi, Option.map_some]
  exact step_word (s := s.pushInput (.word (encode i))) rfl
    (decode_encode (wellFormed_of_callerMay hmay))

theorem mainLoopNext_idle {s : State} (hf : s.fsm = .idle) : mainLoopNext s = some .frame := by
  simp [mainLoopNext, hf]

theorem mainLoopNext_isSome {s : State} (hf : s.fsm ≠ .countingDown) :
    ∃ i, mainLoopNext s = some i := by
  unfold mainLoopNext
  split
  · exact ⟨_, rfl⟩
  · next h => exact absurd h hf
  · exact ⟨_, rfl⟩

/-- Settles O49: RESET and State.reset put the caller at boot, outside COUNTING_DOWN; booting enters
MainLoop and leaves the block in IDLE. -/
theorem callerStartsAtBoot : Obligations.CallerStartsAtBoot := by
  refine ⟨callerNext_boot rfl nofun, fun s t h => ?_, fun s hat hf => ?_⟩
  · obtain rfl := Host.Outcome.next.inj h
    exact callerNext_boot rfl nofun
  · have hne : s.fsm ≠ .countingDown := by rw [hf]; decide
    have hidle : s.performBoot.fsm = .idle := hf
    refine ⟨_, systemStep_caller_boot hat hne, rfl, rfl, ?_, ⟨rfl, rfl⟩, ⟨rfl, rfl⟩, rfl, rfl,
      ⟨rfl, rfl, rfl, rfl⟩, ⟨rfl, rfl, rfl, rfl⟩⟩
    rw [callerNext_mainLoop (s := s.performBoot) rfl hne, mainLoopNext_idle hidle]
    rfl

/-! ### Schedules (R9, R134) -/

/-- The caller is in MainLoop only once the digit select is asserted (R136). -/
def BootedFirst (s : State) : Prop := s.callerAt = .mainLoop → s.digitSel = true

/-- What a turn, and so a schedule, keeps of a system without error that boots first; and it has
displayed nothing unless the digit select is asserted. -/
structure RanSafely (s t : State) : Prop where
  err : noFault t
  booted : BootedFirst t
  displayed : t.trace ≠ s.trace → t.digitSel = true
  selected : s.digitSel = true → t.digitSel = true

theorem RanSafely.refl {s : State} (herr : noFault s) (hboot : BootedFirst s) : RanSafely s s :=
  ⟨herr, hboot, fun h => absurd rfl h, id⟩

theorem RanSafely.trans {s t u : State} (h : RanSafely s t) (h' : RanSafely t u) : RanSafely s u :=
  ⟨h'.err, h'.booted, fun hne => by
    by_cases ht : t.trace = s.trace
    · exact h'.displayed (ht ▸ hne)
    · exact h'.selected (h.displayed ht), fun hs => h'.selected (h.selected hs)⟩

/-- An operation that may be issued runs safely, if it is not the caller's or the digit select is
asserted. -/
theorem exec_ranSafely {i : Instr} {s : State} (hmay : callerMay i s = true) (herr : noFault s)
    (hboot : BootedFirst s) (hsel : i.agent ≠ .caller ∨ s.digitSel = true) :
    ∃ t, exec i s = .next t ∧ RanSafely s t := by
  obtain ⟨t, ht, herr'⟩ := exec_of_callerMay hmay herr
  have hkept : t.digitSel = s.digitSel := exec_digitSel ht
  refine ⟨t, ht, herr', exec_booted ht hboot, fun hne => ?_, fun hs => hkept.trans hs⟩
  obtain hagent | hs := hsel
  · have hlines : SameLines s t :=
      exec_sameLines ht (fun p hp => hagent (hp ▸ rfl)) fun hf => hagent (hf ▸ rfl)
    exact absurd hlines.trace hne
  · exact hkept.trans hs

/-- Every turn runs safely: the caller acts only outside COUNTING_DOWN, and at boot it displays
nothing. -/
theorem systemStep_ranSafely (u : Turn) {s : State} (herr : noFault s) (hboot : BootedFirst s) :
    ∃ t, systemStep u s = .next t ∧ RanSafely s t := by
  cases u with
  | timer => exact systemStep_timer s ▸ exec_ranSafely rfl herr hboot (.inl nofun)
  | reset => exact systemStep_reset s ▸ exec_ranSafely rfl herr hboot (.inl nofun)
  | caller =>
    by_cases hf : s.fsm = .countingDown
    · exact ⟨s, systemStep_caller_halted hf, .refl herr hboot⟩
    · cases hat : s.callerAt with
      | boot =>
        exact ⟨_, systemStep_caller_boot hat hf, herr, fun _ => rfl, fun h => absurd rfl h,
          fun _ => rfl⟩
      | mainLoop =>
        obtain ⟨i, hi⟩ := mainLoopNext_isSome hf
        rw [systemStep_caller_mainLoop hat hf hi]
        exact exec_ranSafely (callerMay_of_mainLoopNext hi) herr hboot (.inr (hboot hat))

theorem systemRun_cons_of {u : Turn} {us : List Turn} {s v : State}
    (h : systemStep u s = .next v) : systemRun (u :: us) s = systemRun us v := by
  simp only [systemRun, h]

/-- Settles O51: every turn runs safely, and so does every schedule of turns. -/
theorem systemRunsWithoutErrorAndBootsFirst : Obligations.SystemRunsWithoutErrorAndBootsFirst := by
  have hrun (turns : List Turn) : ∀ s, noFault s → BootedFirst s →
      ∃ t, systemRun turns s = .next t ∧ RanSafely s t := by
    induction turns with
    | nil => exact fun s herr hboot => ⟨s, rfl, .refl herr hboot⟩
    | cons u us ih =>
      intro s herr hboot
      obtain ⟨v, hv, hfirst⟩ := systemStep_ranSafely u herr hboot
      obtain ⟨t, ht, hrest⟩ := ih v hfirst.err hfirst.booted
      exact ⟨t, (systemRun_cons_of hv).trans ht, hfirst.trans hrest⟩
  intro turns s herr hboot
  obtain ⟨t, ht, hsafe⟩ := hrun turns s herr hboot
  exact ⟨t, ht, hsafe.err, hsafe.booted, hsafe.displayed⟩

/-! ### From RESET to the first frame (R134, R136) -/

/-- Turns of the timer are TICKs. -/
theorem systemRun_timers_append (k : Nat) (us : List Turn) {s t : State}
    (h : execAll (ticks k) s = .next t) :
    systemRun (List.replicate k .timer ++ us) s = systemRun us t := by
  induction k generalizing s with
  | zero => rw [Host.Outcome.next.inj h]; rfl
  | succ k ih =>
    rw [List.replicate_succ, List.cons_append, systemRun_cons_of (systemStep_timer s)]
    exact ih h

/-- Settles O50: RESET, TICKs with nothing in flight, the boot action, TICKs again, and the FRAME of
frame 9. -/
theorem firstFrameAfterResetIsNine : Obligations.FirstFrameAfterResetIsNine := by
  intro a b s
  obtain ⟨u, hu⟩ := execAll_ticks_completes a s.quiet.resetBlock
  obtain ⟨v, hv⟩ := execAll_ticks_completes b u.performBoot
  have huw := execAll_ticks_eq_written hu
  have hvw := execAll_ticks_eq_written hv
  have hfu : u.fsm = .idle := (execAll_ticks_still hu nofun).fsm
  have hu_not : u.fsm ≠ .countingDown := by rw [hfu]; decide
  have hfv : v.fsm = .idle := (execAll_ticks_still hv hu_not).fsm.trans hfu
  have hv_not : v.fsm ≠ .countingDown := by rw [hfv]; decide
  have hboot : systemStep .caller u = .next u.performBoot :=
    systemStep_caller_boot (congrArg State.callerAt huw :) hu_not
  have hframe : systemStep .caller v = .next v.quiet.runFrame :=
    (systemStep_caller_mainLoop (congrArg State.callerAt hvw :) hv_not
      (mainLoopNext_idle hfv)).trans (exec_frame_idle hfv)
  have hrun : systemRun ([Turn.reset] ++ List.replicate a Turn.timer ++ [Turn.caller] ++
      List.replicate b Turn.timer ++ [Turn.caller]) s = .next v.quiet.runFrame := by
    simp only [List.append_assoc, List.cons_append, List.nil_append]
    rw [systemRun_cons_of (systemStep_reset s), systemRun_timers_append a _ hu,
      systemRun_cons_of hboot, systemRun_timers_append b _ hv, systemRun_cons_of hframe, systemRun]
  have hnine : v.frame = .digit 9 := (congrArg State.frame hvw :).trans (congrArg State.frame huw :)
  have hrom : v.rom = s.rom := (congrArg State.rom hvw :).trans (congrArg State.rom huw :)
  have htrace : v.trace = s.trace := (congrArg State.trace hvw :).trans (congrArg State.trace huw :)
  have herr : v.err = 0#3 := (congrArg State.err hvw :).trans (congrArg State.err huw :)
  have hcnt : v.blinkCnt.toNat = (a + b) % 32 := by
    have hcu : u.blinkCnt.toNat = (0 + a) % 32 := (execAll_ticks_blinkedBy hu).blinkCnt
    have hcv : v.blinkCnt.toNat = (u.blinkCnt.toNat + b) % 32 :=
      (execAll_ticks_blinkedBy hv).blinkCnt
    omega
  have hq : v.quiet.fsm = .idle := hfv
  refine ⟨v.quiet.runFrame, hrun, ?_, ?_, ?_, State.runFrame_fsm hq, State.runFrame_sleepCnt hq,
    (State.runFrame_err hq).trans herr, ?_⟩
  · rw [(State.runFrame_lines hq).1, State.framePattern_digit (s := v.quiet) hnine,
      State.quiet_trace, State.quiet_rom, htrace, hrom]
  · exact (State.runFrame_sameFixed hfv).digitSel.trans (congrArg State.digitSel hvw :)
  · rw [State.runFrame_frame, State.quiet_frame, hnine]
    rfl
  · rw [(State.runFrame_sameBlink hfv).blinkCnt, hcnt]

end Sys2Proof.Machine
end

section
/-! SUPPORT. Progress (00_scope.md R8, 40_timer_scheduler.md R75): in a fair run without end every
sleep is counted down by exactly its TICKs and resumed. -/

namespace Sys2Proof.Machine

/-! ### The phases of a sleep, operation by operation -/

theorem exec_sameTimer_of_requestWake {i : Instr} {s t : State} (h : exec i s = .next t)
    (hf : s.fsm = .requestWake) (hresume : i ≠ .resume) (hreset : i ≠ .reset) : SameTimer s t := by
  apply exec_sameTimer h
  cases i with
  | resume => exact absurd rfl hresume
  | reset => exact absurd rfl hreset
  | sleep n | tick | frame => simp [timerAfter, hf]
  | encode d | encodeDp | display p => rfl

theorem exec_resume_fsm {s t : State} (h : exec .resume s = .next t) (hf : s.fsm = .requestWake) :
    t.fsm = .idle := by
  rw [exec_fsm h, hf]
  rfl

/-- An accepted SLEEP n, and FRAME as the one with `n` = 100, start to count `n`. -/
theorem exec_startsSleep {i : Instr} {n : Ticks} {s t : State} (h : exec i s = .next t)
    (hi : (i = .sleep n ∧ n ≠ 0#16 ∧ s.fsm = .idle) ∨ (i = .frame ∧ n = 100#16)) :
    t.fsm = .countingDown ∧ t.sleepCnt = n := by
  obtain ⟨rfl, ha⟩ | ⟨rfl, rfl⟩ := hi
  · have htimer : (t.fsm, t.sleepCnt) = (.countingDown, n) := (exec_timer h).trans (if_pos ha)
    exact ⟨congrArg Prod.fst htimer, congrArg Prod.snd htimer⟩
  · obtain ⟨-, hft, hct⟩ := fsmTransitionTable .frame s t h
    exact ⟨hft, hct⟩

/-! ### TICKs in a stretch of a run -/

/-- How many of the operations from `m` on and before `w` are TICKs. -/
def ticksIn (ops : Nat → Instr) (m w : Nat) : Nat :=
  (List.range' m (w - m)).countP fun l => ops l = .tick

section
variable {ops : Nat → Instr}

theorem ticksIn_append {m j w : Nat} (hmj : m ≤ j) (hjw : j ≤ w) :
    ticksIn ops m w = ticksIn ops m j + ticksIn ops j w := by
  obtain ⟨a, rfl⟩ := Nat.exists_eq_add_of_le hmj
  obtain ⟨b, rfl⟩ := Nat.exists_eq_add_of_le hjw
  simp only [ticksIn, Nat.add_assoc, Nat.add_sub_cancel_left]
  rw [← List.range'_append_1, List.countP_append]
  congr 3
  omega

theorem ticksIn_eq_zero {m w : Nat} (h : ∀ l, m ≤ l → l < w → ops l ≠ .tick) :
    ticksIn ops m w = 0 := by
  refine List.countP_eq_zero.mpr fun l hl => ?_
  obtain ⟨hml, hlw⟩ := List.mem_range'_1.mp hl
  simpa using h l hml (by omega)

theorem ticksIn_tick {w : Nat} (h : ops w = .tick) : ticksIn ops w (w + 1) = 1 := by
  simp [ticksIn, h]

/-! ### Fairness ends each phase (R75) -/

variable {st : Nat → State}

/-- If the block cannot stay in `f` for ever without `act`, and nothing but `act` moves it there,
then from `f` on it stays as it is up to the first `act`. -/
theorem stays_until {act : Instr} {f : Fsm}
    (hfair : ∀ k, ∃ j, k ≤ j ∧ ((st j).fsm ≠ f ∨ ops j = act))
    (hkeep : ∀ l, ops l ≠ act → (st l).fsm = f → SameTimer (st l) (st (l + 1))) {m : Nat}
    (hm : (st m).fsm = f) :
    ∃ j, m ≤ j ∧ ops j = act ∧ (∀ l, m ≤ l → l ≤ j → SameTimer (st m) (st l)) ∧
      ∀ l, m ≤ l → l < j → ops l ≠ act := by
  obtain ⟨j, ⟨hmj, hend⟩, hfirst⟩ : ∃ j, (m ≤ j ∧ ((st j).fsm ≠ f ∨ ops j = act)) ∧
      ∀ l < j, ¬ (m ≤ l ∧ ((st l).fsm ≠ f ∨ ops l = act)) :=
    ⟨Nat.find (hfair m), Nat.find_spec (hfair m), fun _ => Nat.find_min (hfair m)⟩
  have hbefore (l : Nat) (hml : m ≤ l) (hlj : l < j) : (st l).fsm = f ∧ ops l ≠ act := by
    simpa [hml] using hfirst l hlj
  have hsame (l : Nat) (hml : m ≤ l) : l ≤ j → SameTimer (st m) (st l) := by
    induction l, hml using Nat.le_induction with
    | base => exact fun _ => ⟨rfl, rfl⟩
    | succ l hml ih =>
      intro hlj
      obtain ⟨hfl, hact⟩ := hbefore l hml hlj
      have hprev := ih (by omega)
      have hnext := hkeep l hact hfl
      exact ⟨hnext.fsm.trans hprev.fsm, hnext.sleepCnt.trans hprev.sleepCnt⟩
  have hfj : (st j).fsm = f := (hsame j hmj le_rfl).fsm.trans hm
  exact ⟨j, hmj, hend.resolve_left fun hne => hne hfj, hsame,
    fun l hml hlj => (hbefore l hml hlj).2⟩

variable (hfair : FairRun ops st) (hreset : ∀ j, ops j ≠ .reset)
include hfair hreset

/-- From COUNTING_DOWN the run comes to a first TICK, and nothing moves the countdown before it. -/
theorem FairRun.counting_until_tick {m : Nat} (hm : (st m).fsm = .countingDown) :
    ∃ j, m ≤ j ∧ ops j = .tick ∧ (∀ l, m ≤ l → l ≤ j → SameTimer (st m) (st l)) ∧
      ∀ l, m ≤ l → l < j → ops l ≠ .tick :=
  stays_until hfair.tick
    (fun l hl hf => exec_sameTimer_of_counting (hfair.execution l) hf hl (hreset l)) hm

/-- From REQUEST_WAKE the run comes to a RESUME, and nothing leaves REQUEST_WAKE before it. -/
theorem FairRun.requestWake_until_resume {m : Nat} (hm : (st m).fsm = .requestWake) :
    ∃ j, m ≤ j ∧ ops j = .resume ∧ (∀ l, m ≤ l → l ≤ j → (st l).fsm = .requestWake) ∧
      (st (j + 1)).fsm = .idle := by
  obtain ⟨j, hmj, hj, hsame, -⟩ := stays_until hfair.resume
    (fun l hl hf => exec_sameTimer_of_requestWake (hfair.execution l) hf hl (hreset l)) hm
  have hphase (l : Nat) (hml : m ≤ l) (hlj : l ≤ j) : (st l).fsm = .requestWake :=
    (hsame l hml hlj).fsm.trans hm
  exact ⟨j, hmj, hj, hphase, exec_resume_fsm (hj ▸ hfair.execution j) (hphase j hmj le_rfl)⟩

/-- A sleep with `c` + 1 ticks to go stays in flight up to the TICK that is the last of `c` + 1. -/
theorem FairRun.counts_down (c : Nat) {m : Nat} (hm : (st m).fsm = .countingDown)
    (hc : (st m).sleepCnt.toNat = c + 1) :
    ∃ w, m ≤ w ∧ ops w = .tick ∧ ticksIn ops m (w + 1) = c + 1 ∧
      (∀ l, m ≤ l → l ≤ w → (st l).fsm = .countingDown) ∧ (st (w + 1)).fsm = .requestWake := by
  induction c generalizing m with
  | zero =>
    obtain ⟨j, hmj, hj, hsame, hnone⟩ := hfair.counting_until_tick hreset hm
    have hlast : (st j).sleepCnt = 1#16 :=
      (hsame j hmj le_rfl).sleepCnt.trans (BitVec.eq_of_toNat_eq hc)
    have hfj : (st j).fsm = .countingDown := (hsame j hmj le_rfl).fsm.trans hm
    obtain ⟨hwoken, -⟩ := exec_tick_counting (hj ▸ hfair.execution j) hfj
    refine ⟨j, hmj, hj, ?_, fun l hml hlj => (hsame l hml hlj).fsm.trans hm,
      hwoken.trans (if_pos hlast)⟩
    rw [ticksIn_append hmj (Nat.le_succ j), ticksIn_eq_zero hnone, ticksIn_tick hj]
  | succ c ih =>
    obtain ⟨j, hmj, hj, hsame, hnone⟩ := hfair.counting_until_tick hreset hm
    have hcj : (st j).sleepCnt.toNat = c + 1 + 1 := by rw [(hsame j hmj le_rfl).sleepCnt, hc]
    have hfj : (st j).fsm = .countingDown := (hsame j hmj le_rfl).fsm.trans hm
    obtain ⟨hfnext, hcnext⟩ := exec_tick_counting (hj ▸ hfair.execution j) hfj
    have hne : (st j).sleepCnt ≠ 1#16 := fun h1 => by rw [h1] at hcj; simp at hcj
    have hcnext' : (st (j + 1)).sleepCnt.toNat = c + 1 := by rw [hcnext]; bv_omega
    obtain ⟨w, hjw, hw, hcount, hphase, hwoken⟩ := ih (hfnext.trans (if_neg hne)) hcnext'
    refine ⟨w, by omega, hw, ?_, fun l hml hlw => ?_, hwoken⟩
    · rw [ticksIn_append hmj (by omega : j ≤ w + 1), ticksIn_eq_zero hnone,
        ticksIn_append (Nat.le_succ j) (by omega : j + 1 ≤ w + 1), ticksIn_tick hj, hcount]
      omega
    · by_cases hlj : l ≤ j
      · exact (hsame l hml hlj).fsm.trans hm
      · exact hphase l (by omega) hlw

end

/-- Settles O30: the countdown of the sleep, then the wait for RESUME. -/
theorem fairRunsCompleteEverySleep : Obligations.FairRunsCompleteEverySleep := by
  intro ops st hfair hreset k n hstart
  obtain ⟨hf, hc⟩ := exec_startsSleep (hfair.execution k) hstart
  have hn : n ≠ 0#16 := by
    obtain ⟨-, hn, -⟩ | ⟨-, rfl⟩ := hstart
    · exact hn
    · decide
  have hpos : n.toNat ≠ 0 := fun h0 => hn (BitVec.eq_of_toNat_eq h0)
  have hlength : n.toNat - 1 + 1 = n.toNat := by omega
  obtain ⟨w, hkw, hw, hcount, hcounting, hwoken⟩ :=
    hfair.counts_down hreset (n.toNat - 1) hf (by rw [hc, hlength])
  obtain ⟨j, hwj, hj, hwaiting, hidle⟩ := hfair.requestWake_until_resume hreset hwoken
  refine ⟨w, j, hkw, hwj, hw, hj, ?_, hcounting, hwaiting, hidle⟩
  rw [ticksIn, Nat.add_sub_add_right, hlength] at hcount
  exact hcount

end Sys2Proof.Machine
end

section
/-! SUPPORT. The text of an operation (30_encoding.md R54): how a line falls into words, how an
operand in hexadecimal is read, and that a rendered line reads back. -/

namespace Sys2Proof.Machine

/-! ### The words of a line -/

/-- A word of a line: not empty, and no character of it ends the word or the line. -/
structure IsWord (w : List Char) : Prop where
  nonempty : w ≠ []
  plain : ∀ c ∈ w, isBlank c = false ∧ c ≠ ';'

theorem dropComment_of_notMem {cs : List Char} (h : ∀ c ∈ cs, c ≠ ';') : dropComment cs = cs := by
  induction cs with
  | nil => rfl
  | cons c cs ih =>
    obtain ⟨hc, hcs⟩ := List.forall_mem_cons.mp h
    simp [dropComment, hc, ih hcs]

/-- Characters that are not blank join the word being read. -/
theorem splitWords_append {w : List Char} (h : ∀ c ∈ w, isBlank c = false) (cs cur : List Char) :
    splitWords (w ++ cs) cur = splitWords cs (w.reverse ++ cur) := by
  induction w generalizing cur with
  | nil => rfl
  | cons c w ih =>
    obtain ⟨hc, hw⟩ := List.forall_mem_cons.mp h
    simp [splitWords, hc, ih hw]

/-- The line of one word. -/
theorem splitWords_word {w : List Char} (h : IsWord w) : splitWords w [] = [w] := by
  have hread := splitWords_append (fun c hc => (h.plain c hc).1) [] []
  simpa [splitWords, h.nonempty] using hread

/-- The line of two words with a blank between them. -/
theorem splitWords_two {w a : List Char} (hw : IsWord w) (ha : IsWord a) :
    splitWords (w ++ [' '] ++ a) [] = [w, a] := by
  rw [List.append_assoc, splitWords_append fun c hc => (hw.plain c hc).1]
  have hblank : isBlank ' ' = true := rfl
  simp [splitWords, hblank, hw.nonempty, splitWords_word ha]

theorem parseLine_word {w : List Char} (h : IsWord w) : parseLine w = (readBare w).map some := by
  rw [parseLine, dropComment_of_notMem fun c hc => (h.plain c hc).2, splitWords_word h]

theorem parseLine_two {w a : List Char} (hw : IsWord w) (ha : IsWord a) :
    parseLine (w ++ [' '] ++ a) =
      (readNumber a).bind fun n => (readWithOperand w n).map some := by
  have hplain : ∀ c ∈ w ++ [' '] ++ a, c ≠ ';' := by
    intro c hc
    rw [List.mem_append, List.mem_append, List.mem_singleton] at hc
    obtain (hc | rfl) | hc := hc
    · exact (hw.plain c hc).2
    · decide
    · exact (ha.plain c hc).2
  rw [parseLine, dropComment_of_notMem hplain, splitWords_two hw ha]

theorem mnemonicText_isWord (i : Instr) : IsWord (mnemonicText i) := by
  cases i <;> exact ⟨List.cons_ne_nil _ _, by simp [mnemonicText, isBlank]⟩

/-! ### An operand in hexadecimal -/

/-- A hexadecimal digit is a plain character and is read as its value. -/
theorem hexChar_spec {v : Nat} (h : v < 16) :
    isBlank (hexChar v) = false ∧ hexChar v ≠ ';' ∧ digitValue (hexChar v) = some v := by
  interval_cases v <;> decide

theorem hexText_isWord (v : BitVec 16) : IsWord (hexText v) := by
  have hplain (m : Nat) : isBlank (hexChar (m % 16)) = false ∧ hexChar (m % 16) ≠ ';' := by
    obtain ⟨hblank, hsemi, -⟩ := hexChar_spec (Nat.mod_lt m (by decide : 0 < 16))
    exact ⟨hblank, hsemi⟩
  have hmark : isBlank '0' = false ∧ isBlank 'x' = false := ⟨rfl, rfl⟩
  exact ⟨List.cons_ne_nil _ _, by simp [hexText, hplain, hmark]⟩

/-- A hexadecimal digit adds its value to 16 times what is read before it. -/
theorem readDigits_hexChar {v : Nat} (h : v < 16) (acc : Nat) (cs : List Char) :
    readDigits 16 acc (hexChar v :: cs) = readDigits 16 (acc * 16 + v) cs := by
  obtain ⟨-, -, hvalue⟩ := hexChar_spec h
  simp [readDigits, hvalue, h]

theorem readNumber_hexText (v : BitVec 16) : readNumber (hexText v) = some v.toNat := by
  have hv := v.isLt
  have hdigit (m : Nat) : m % 16 < 16 := Nat.mod_lt m (by decide)
  rw [hexText, readNumber, readDigits_hexChar (hdigit _), readDigits_hexChar (hdigit _),
    readDigits_hexChar (hdigit _), readDigits_hexChar (hdigit _), readDigits]
  · congr 1
    omega
  · exact List.cons_ne_nil _ _

/-- A line with an operand is read by mnemonic and value. -/
theorem parseLine_operand (i : Instr) (v : BitVec 16) :
    parseLine (mnemonicText i ++ [' '] ++ hexText v) =
      (readWithOperand (mnemonicText i) v.toNat).map some := by
  rw [parseLine_two (mnemonicText_isWord i) (hexText_isWord v), readNumber_hexText,
    Option.bind_some]

/-! ### The obligation -/

theorem readWithOperand_sleep (n : Ticks) :
    readWithOperand (mnemonicText (.sleep n)) n.toNat = some (.sleep n) := by
  simp [readWithOperand, mnemonicText, n.isLt]

theorem readWithOperand_encode {d : Digit} (hd : d.toNat ≤ 9) :
    readWithOperand (mnemonicText (.encode d)) d.toNat = some (.encode d) := by
  simp [readWithOperand, mnemonicText, hd]

theorem readWithOperand_display (p : Pattern) :
    readWithOperand (mnemonicText (.display p)) p.toNat = some (.display p) := by
  simp [readWithOperand, mnemonicText, p.isLt]

/-- Settles O57, by the operation: its line has one word or two, and each is read back. -/
theorem textOfAnOperationReadsBack : Obligations.TextOfAnOperationReadsBack := by
  intro i hi
  cases i with
  | sleep n => rw [render, parseLine_operand, readWithOperand_sleep, Option.map_some]
  | encode d =>
    have hd : (d.zeroExtend 16).toNat = d.toNat := by
      rw [BitVec.toNat_setWidth, Nat.mod_eq_of_lt (by omega)]
    have hrange : d.toNat ≤ 9 := of_decide_eq_true hi
    rw [render, parseLine_operand, hd, readWithOperand_encode hrange, Option.map_some]
  | display p =>
    have hp : (p.zeroExtend 16).toNat = p.toNat := by
      rw [BitVec.toNat_setWidth, Nat.mod_eq_of_lt (by omega)]
    rw [render, parseLine_operand, hp, readWithOperand_display, Option.map_some]
  | tick | resume | encodeDp | frame | reset =>
    rw [render, parseLine_word (mnemonicText_isWord _)]
    rfl

end Sys2Proof.Machine
end
